-- ==== Sys2Proof/Word.lean ====
section
/-! DEFINITION. The word types of the engine (00_scope.md R12). -/

namespace Sys2Proof

/-- A byte of any of the address spaces (R15, R60). -/
abbrev Byte := BitVec 8

/-- Ports, lengths, block numbers and checksum words (R12). -/
abbrev Word16 := BitVec 16

/-- Addresses of the IP layer (R12). -/
abbrev Word32 := BitVec 32

/-- Hardware addresses (R12). -/
abbrev Mac := BitVec 48

/-- The 12-byte UDP pseudo-header a caller builds (R98, R141). -/
abbrev Pseudo := BitVec 96

end Sys2Proof
end

