-- ==== Sys2Proof/Machine/Bytes.lean ====
section
/-! DEFINITION. Big-endian byte order, said once (20_memory.md R66, 00_scope.md R15). -/

namespace Sys2Proof.Machine

/-- The number a byte string holds, its first byte the most significant (R66). -/
def natBE : List Byte → Nat
  | [] => 0
  | b :: rest => b.toNat * 256 ^ rest.length + natBE rest

/-- The low `n` bytes of a number, the most significant first (R66). -/
def bytesBE : Nat → Nat → List Byte
  | 0, _ => []
  | n + 1, v => BitVec.ofNat 8 (v / 256 ^ n) :: bytesBE n v

/-- A 16-bit field's bytes (`PUT16`, R15). -/
def bytes16 (w : Word16) : List Byte := bytesBE 2 w.toNat

/-- A 32-bit field's bytes (`PUT32`, R15). -/
def bytes32 (w : Word32) : List Byte := bytesBE 4 w.toNat

/-- A hardware address's bytes (R91). -/
def bytes48 (m : Mac) : List Byte := bytesBE 6 m.toNat

/-- A pseudo-header's bytes (R98). -/
def bytes96 (h : Pseudo) : List Byte := bytesBE 12 h.toNat

/-- A 16-bit field from its bytes (`BE16`, R15). -/
def word16 (bs : List Byte) : Word16 := BitVec.ofNat 16 (natBE bs)

/-- A 32-bit field from its bytes (`BE32`, R15). -/
def word32 (bs : List Byte) : Word32 := BitVec.ofNat 32 (natBE bs)

/-- A hardware address from its bytes (R91). -/
def word48 (bs : List Byte) : Mac := BitVec.ofNat 48 (natBE bs)

/-- A pseudo-header from its bytes (R98). -/
def word96 (bs : List Byte) : Pseudo := BitVec.ofNat 96 (natBE bs)

end Sys2Proof.Machine
end

