-- ==== Sys2Proof/Config.lean ====
section
/-! DEFINITION. The constants the spec fixes, the type of the parameters it leaves open (00_scope.md
R11), the parameter values the reset state takes (log 5), and the free values (logs 6, 9, 21, 24, 25). -/

namespace Sys2Proof

/-- The implementation parameters of R11 that the spec leaves open or gives a default for. They are
constants of a boot session (R41): no rule writes them. -/
structure Params where
  localMac : Mac
  tickBits : Nat
  tMin : Nat
  tMax : Nat
  jitterMax : Nat
  rxBufSize : Nat
  ctrlMemSize : Nat
  rxStart : Nat
  rxEnd : Nat
  txRegStart : Nat
  txPrioStart : Nat
  txSlotSize : Nat
  prioNone : Nat
  pollCap : Nat
  dhcpXid : Word32
  dhcpExtraOptions : List Byte
  dhcpPadTo : Nat
  tftpMode : List Byte
  signature : Option (Nat × List Byte)
deriving DecidableEq, Repr

/-- The spaces a checksum operation reads bytes of (R60, R141). -/
inductive ByteSpace where
  | buf
  | tpl
  | ctrl
  | pseudo
deriving DecidableEq, Repr

namespace Config

/-- `MAX_BLOCK`, the one parameter the source fixes (R11). -/
def maxBlock : Nat := 512

/-- `IP_TTL` of transmitted datagrams (R11, R250). -/
def ipTtl : Byte := 64

/-- The size of the header template `TPL` (R27). -/
def tplSize : Nat := 42

/-- The Ethernet broadcast hardware address (R106). -/
def broadcastMac : Mac := 0xffffffffffff

/-- The IP limited-broadcast address (R106). -/
def broadcastIp : Word32 := 0xffffffff

/-- The DHCP server port (R99). -/
def dhcpServerPort : Word16 := 67

/-- The DHCP client port (R99). -/
def dhcpClientPort : Word16 := 68

/-- The TFTP server port (R99). -/
def tftpServerPort : Word16 := 69

/-- DESIGN CHOICE (log 5), unsafe for a claim that leans on a value: the parameter values of
95_test_vectors.md section 0, with the local address, exclusions and defaults of R11. They are what
`State.reset` takes; statements quantify over the parameters instead. -/
def resetParams : Params where
  localMac := 0x020000000001
  tickBits := 16
  tMin := 50
  tMax := 400
  jitterMax := 7
  rxBufSize := 600
  ctrlMemSize := 0x2000
  rxStart := 0
  rxEnd := 0x19ff
  txRegStart := 0x1a00
  txPrioStart := 0x1c00
  txSlotSize := 0x200
  prioNone := 0xffff
  pollCap := 1000
  dhcpXid := 0x12345678
  dhcpExtraOptions := [0x37, 0x01, 0x1c]
  dhcpPadTo := 300
  tftpMode := [0x6f, 0x63, 0x74, 0x65, 0x74]
  signature := none

/-- Free value (log 6): the number of polls the bounded wait at a position needs (R401). -/
opaque freePolls : Nat → Nat

/-- Free value (log 6): the jitter draw at a position (R180). -/
opaque freeJitter : Nat → Nat

/-- Free value (log 6): the client-port draw at a position (R332). -/
opaque freePort : Nat → Word16

/-- Free value (log 6): whether the completion hook at a position transfers control (R347). -/
opaque freeTransfer : Nat → Bool

/-- Free value (log 21): the next pointer and the bytes of the frame that `Link.ReadFrame` reports at
an offset while the ring holds none, after a number of LINK steps (R400). -/
opaque freeFrame : Nat → Nat → Nat × List Byte

/-- Free value (log 22): the byte at an index of a stream read that starts at an offset, where the read
finds bytes of the receive ring that no rule places, after a number of LINK steps (R173, R400). -/
opaque freeRing : Nat → Nat → Nat → Byte

/-- Free value (log 24): a 16-bit length field whose exact value does not fit in 16 bits (R250). -/
opaque freeLength : Nat → Word16

/-- Free value (log 25): `TFTP_TOTAL` after a block that takes it past 32 bits (R344, R345). -/
opaque freeTotal : Word32 → Nat → Word32

/-- Free value (log 9): what a checksum operation reads at an address its space does not have (R60,
R141). -/
opaque freeByte : ByteSpace → Nat → Byte

end Config

end Sys2Proof
end

