-- ==== Sys2Proof/Syntax.lean ====
section
/-! DEFINITION. The instructions: one constructor per row of spec/opcode_table.json. The 29 operation
codes of 30_encoding.md R108 with their operands, then the 36 wire codes the engine decodes (R6, R92
to R104). -/

namespace Sys2Proof

/-- The two transmit slots (R30). -/
inductive Slot where
  | reg
  | prio
deriving DecidableEq, Repr

/-- The space a stream read is copied to (R142): `BUF` alone, since `TPL` and `DEST` have no writers but
those that R27, R253 and R61 name (log 30). -/
inductive StreamSpace where
  | buf
deriving DecidableEq, Repr

/-- The host spaces a checksum range to validate or install lies in (R144, R145). -/
inductive HostSpace where
  | buf
  | tpl
deriving DecidableEq, Repr

/-- What `CK.ACCUMULATE` sums over: a host space, or a 12-byte pseudo-header string (R141). -/
inductive SumSpace where
  | buf
  | tpl
  | pseudo (header : Pseudo)
deriving DecidableEq, Repr

/-- The engine operations and the wire codes. -/
inductive Instr where
  /-- 0x10, R140 -/
  | ckReset
  /-- 0x11, R141 -/
  | ckAccumulate (space : SumSpace) (off n : Nat)
  /-- 0x12, R142 -/
  | ckAccumulateStream (src : Nat) (dst : StreamSpace) (off n : Nat)
  /-- 0x13, R143 -/
  | ckFold
  /-- 0x14, R144 -/
  | ckValidate (space : HostSpace) (off n : Nat) (pseudo : Option Pseudo)
  /-- 0x15, R145 -/
  | ckInstall (space : HostSpace) (off n field : Nat)
  /-- 0x20, R171 -/
  | ethCycle
  /-- 0x21, R172 -/
  | ethPoll
  /-- 0x22, R174 -/
  | ethReceive
  /-- 0x23, R175 -/
  | ethDispatch
  /-- 0x24, R176 -/
  | ethAdvance (next : Nat)
  /-- 0x25, R178 -/
  | ethTransmit (slot : Slot) (len : Nat)
  /-- 0x26, R179 -/
  | ethCheckRetransmit (now : Nat)
  /-- 0x27, R181 -/
  | ethAcknowledge
  /-- 0x30, R220 -/
  | arpHandleRequest
  /-- 0x40, R240 -/
  | ipReceive
  /-- 0x41, R245 -/
  | udpDemux
  /-- 0x42, R250 -/
  | ipCreate (destMac : Mac) (destIp : Word32) (srcPort dstPort udpLen : Word16)
  /-- 0x43, R251 -/
  | ipReply (udpLen : Word16)
  /-- 0x44, R252 -/
  | ipSend (slot : Slot) (payload : List Byte)
  /-- 0x50, R280 -/
  | dhcpBoot
  /-- 0x51, R285 -/
  | dhcpReceive
  /-- 0x52, R300 -/
  | dhcpParseOptions
  /-- 0x60, R330 -/
  | tftpReadRequest (filename : List Byte) (destBase destLimit : Nat) (hook verify : Bool)
  /-- 0x61, R335 -/
  | tftpReceive
  /-- 0x62, R347 -/
  | tftpComplete
  /-- 0x70, R384 -/
  | irqTick
  /-- 0x71, R390 -/
  | fatal (code : Byte)
  /-- 0x72, R421 -/
  | engineBoot
  /-- ethertype 0x0806, R92 -/
  | ethArp
  /-- ethertype 0x0800, R92 -/
  | ethIpv4
  /-- every other ethertype, R92 -/
  | ethUnknown (ethertype : Word16)
  /-- ARP operation 1, R94 -/
  | arpRequest
  /-- ARP operation 2, R94 -/
  | arpReply
  /-- IP protocol 17, R96 -/
  | ipv4Udp
  /-- UDP destination port 68, R99 -/
  | udpDhcpClient
  /-- a UDP destination port that may be the transfer's client port, R245 -/
  | udpTftpClient (port : Word16)
  /-- UDP destination port 67, R99 -/
  | udpDhcpServer
  /-- UDP destination port 69, R99 -/
  | udpTftpServer
  /-- DHCP message type 1, R103 -/
  | dhcpDiscover
  /-- DHCP message type 2, R103 -/
  | dhcpOffer
  /-- DHCP message type 3, R103 -/
  | dhcpRequest
  /-- DHCP message type 4, R103 -/
  | dhcpDecline
  /-- DHCP message type 5, R103 -/
  | dhcpAck
  /-- DHCP message type 6, R103 -/
  | dhcpNak
  /-- DHCP message type 7, R103 -/
  | dhcpRelease
  /-- DHCP message type 8, R103 -/
  | dhcpInform
  /-- a DHCP message with no option 53, R286 -/
  | dhcpBootpReply
  /-- option 0, R301 -/
  | optPad
  /-- option 12, R302 -/
  | optHostname
  /-- option 28, R305 -/
  | optBroadcastAddress
  /-- option 50, R302 -/
  | optRequestedIp
  /-- option 51, R302 -/
  | optLeaseTime
  /-- option 53, R304 -/
  | optMessageType
  /-- option 54, R302 -/
  | optServerIdentifier
  /-- option 55, R302 -/
  | optParameterRequestList
  /-- option 57, R302 -/
  | optMaxMessageSize
  /-- option 61, R302 -/
  | optClientIdentifier
  /-- option 255, R301 -/
  | optEnd
  /-- every other option code, R302 -/
  | optUnknown (code : Byte)
  /-- TFTP opcode 1, R337 -/
  | tftpRrq
  /-- TFTP opcode 3, R335 -/
  | tftpData
  /-- TFTP opcode 4, R337 -/
  | tftpAck
  /-- TFTP opcode 5, R336 -/
  | tftpError
  /-- every other TFTP opcode, R337 -/
  | tftpOther (opcode : Word16)
deriving DecidableEq, Repr

end Sys2Proof
end

