-- ==== Sys2Proof/WellFormed.lean ====
section
/-! DEFINITION. The well-formed instructions: every operand at a value the model's encoding of it can
hold (log 3), and every "any other" code outside the codes that have a row of their own. -/

namespace Sys2Proof

/-- An offset, count, address or tick sample of an operation: 32 bits of the encoding (log 3). -/
abbrev fitsOperand (n : Nat) : Prop := n < 4294967296

/-- The option codes of R102 that have a row of their own. -/
def listedOptions : List Byte := [0, 12, 28, 50, 51, 53, 54, 55, 57, 61, 255]

/-- The well-formed instructions. -/
def Instr.wellFormed : Instr → Bool
  | .ckAccumulate _ off n => fitsOperand off && fitsOperand n
  | .ckAccumulateStream src _ off n => fitsOperand src && fitsOperand off && fitsOperand n
  | .ckValidate _ off n _ => fitsOperand off && fitsOperand n
  | .ckInstall _ off n field => fitsOperand off && fitsOperand n && fitsOperand field
  | .ethAdvance next => fitsOperand next
  | .ethTransmit _ len => fitsOperand len
  | .ethCheckRetransmit now => fitsOperand now
  | .ipSend _ payload => fitsOperand payload.length
  | .tftpReadRequest filename base limit _ _ =>
    fitsOperand filename.length && fitsOperand base && fitsOperand limit
  | .ethUnknown et => et ≠ 0x0806 && et ≠ 0x0800
  | .udpTftpClient port => port ≠ 67 && port ≠ 68 && port ≠ 69
  | .optUnknown code => code ∉ listedOptions
  | .tftpOther op => op ≠ 1 && op ≠ 3 && op ≠ 4 && op ≠ 5
  | .ckReset | .ckFold | .ethCycle | .ethPoll | .ethReceive | .ethDispatch | .ethAcknowledge
  | .arpHandleRequest | .ipReceive | .udpDemux | .ipCreate _ _ _ _ _ | .ipReply _ | .dhcpBoot
  | .dhcpReceive | .dhcpParseOptions | .tftpReceive | .tftpComplete | .irqTick | .fatal _
  | .engineBoot | .ethArp | .ethIpv4 | .arpRequest | .arpReply | .ipv4Udp | .udpDhcpClient
  | .udpDhcpServer | .udpTftpServer | .dhcpDiscover | .dhcpOffer | .dhcpRequest | .dhcpDecline
  | .dhcpAck | .dhcpNak | .dhcpRelease | .dhcpInform | .dhcpBootpReply | .optPad | .optHostname
  | .optBroadcastAddress | .optRequestedIp | .optLeaseTime | .optMessageType | .optServerIdentifier
  | .optParameterRequestList | .optMaxMessageSize | .optClientIdentifier | .optEnd | .tftpRrq
  | .tftpData | .tftpAck | .tftpError => true

end Sys2Proof
end

