-- ==== Sys2Proof/Decode.lean ====
section
/-! DEFINITION. The decoder: total on any bytes, refusing by name; and after it the encoder. A code is
read in a format (30_encoding.md R90), because one number means different things in different formats
(17 is `CK.ACCUMULATE` as an operation code and UDP as an IP protocol; log 4). The operation codes are
R108's; the spec gives operands and not their bits, so their layout after the code byte is the model's
(log 3): numbers big-endian in four bytes, addresses, ports and lengths big-endian in their own width,
selectors and flags in one byte, a byte string after its length in four bytes. -/

namespace Sys2Proof

open Machine (natBE bytesBE bytes16 bytes32 bytes48 bytes96 word16 word32 word48 word96)

/-- The formats a code is decoded in (R90). The pseudo-header is summed and never decoded. -/
inductive Format where
  | op
  | eth
  | arp
  | ipv4
  | udp
  | dhcp
  | dhcpOpt
  | tftp
deriving DecidableEq, Repr

/-- A code as it is fetched: its format and its bytes, the first byte first. -/
structure CodeWord where
  format : Format
  bytes : List Byte
deriving DecidableEq, Repr

/-- Why a code word is no instruction. A wire code with no row is dropped by the step; the others stop
it, which is safe. -/
inductive DecodeError where
  /-- The bytes of the format's code field are not all there. -/
  | missingCode (format : Format)
  /-- An operation code that is not in R108's table (R110). -/
  | unknownOperation (code : Byte)
  /-- An operation whose operands are cut short or select nothing (log 3). -/
  | badOperands (code : Byte)
  /-- A wire code with no row of the table: the engine drops the unit (R110). -/
  | noRow (format : Format) (code : Nat)
deriving DecidableEq, Repr

/-! ### Operands -/

/-- The first `k` bytes and the rest. -/
def takeBytes (k : Nat) (bs : List Byte) : Option (List Byte × List Byte) :=
  if k ≤ bs.length then some (bs.take k, bs.drop k) else none

/-- A number of four bytes (log 3). -/
def takeNat (bs : List Byte) : Option (Nat × List Byte) :=
  (takeBytes 4 bs).map fun p => (natBE p.1, p.2)

/-- A one-byte flag, 0 or 1. -/
def takeFlag : List Byte → Option (Bool × List Byte)
  | b :: rest => if b = 0 then some (false, rest) else if b = 1 then some (true, rest) else none
  | [] => none

/-- A slot selector, 0 REG and 1 PRIO. -/
def takeSlot (bs : List Byte) : Option (Slot × List Byte) :=
  (takeFlag bs).map fun p => (if p.1 then .prio else .reg, p.2)

/-- A host-space selector, 0 BUF and 1 TPL. -/
def takeHostSpace (bs : List Byte) : Option (HostSpace × List Byte) :=
  (takeFlag bs).map fun p => (if p.1 then .tpl else .buf, p.2)

/-- A pseudo-header, 12 bytes. -/
def takePseudo (bs : List Byte) : Option (Pseudo × List Byte) :=
  (takeBytes 12 bs).map fun p => (word96 p.1, p.2)

/-- A sum-space selector, 0 BUF, 1 TPL, 2 a pseudo-header that follows. -/
def takeSumSpace : List Byte → Option (SumSpace × List Byte)
  | b :: rest =>
    if b = 0 then some (.buf, rest) else if b = 1 then some (.tpl, rest)
    else if b = 2 then (takePseudo rest).map fun p => (.pseudo p.1, p.2) else none
  | [] => none

/-- An optional pseudo-header, 0 absent, 1 followed by its 12 bytes. -/
def takeOptionalPseudo (bs : List Byte) : Option (Option Pseudo × List Byte) :=
  (takeFlag bs).bind fun p =>
    if p.1 then (takePseudo p.2).map fun q => (some q.1, q.2) else some (none, p.2)

/-- A byte string after its length. -/
def takeString (bs : List Byte) : Option (List Byte × List Byte) :=
  (takeNat bs).bind fun p => takeBytes p.1 p.2

/-- A 16-bit operand. -/
def takeWord16 (bs : List Byte) : Option (Word16 × List Byte) :=
  (takeBytes 2 bs).map fun p => (word16 p.1, p.2)

/-- A 32-bit operand. -/
def takeWord32 (bs : List Byte) : Option (Word32 × List Byte) :=
  (takeBytes 4 bs).map fun p => (word32 p.1, p.2)

/-- A 48-bit operand. -/
def takeMac (bs : List Byte) : Option (Mac × List Byte) :=
  (takeBytes 6 bs).map fun p => (word48 p.1, p.2)

/-- A reading of operands ends in an instruction or in the named error. -/
def withOperands (code : Byte) (i : Option Instr) : Except DecodeError Instr :=
  match i with
  | some i => .ok i
  | none => .error (.badOperands code)

/-! ### The operation codes (R108) -/

/-- Operands of `CK.ACCUMULATE`: space, off, n. -/
def takeAccumulate (bs : List Byte) : Option Instr :=
  (takeSumSpace bs).bind fun s => (takeNat s.2).bind fun o => (takeNat o.2).bind fun n =>
    some (.ckAccumulate s.1 o.1 n.1)

/-- Operands of `CK.ACCUMULATE_STREAM`: src, dst (space and offset), n. -/
def takeAccumulateStream (bs : List Byte) : Option Instr :=
  (takeNat bs).bind fun r => (takeNat r.2).bind fun o => (takeNat o.2).bind fun n =>
    some (.ckAccumulateStream r.1 .buf o.1 n.1)

/-- Operands of `CK.VALIDATE`: space, off, n, the optional pseudo-header. -/
def takeValidate (bs : List Byte) : Option Instr :=
  (takeHostSpace bs).bind fun s => (takeNat s.2).bind fun o => (takeNat o.2).bind fun n =>
    (takeOptionalPseudo n.2).bind fun p => some (.ckValidate s.1 o.1 n.1 p.1)

/-- Operands of `CK.INSTALL`: space, off, n, field. -/
def takeInstall (bs : List Byte) : Option Instr :=
  (takeHostSpace bs).bind fun s => (takeNat s.2).bind fun o => (takeNat o.2).bind fun n =>
    (takeNat n.2).bind fun f => some (.ckInstall s.1 o.1 n.1 f.1)

/-- Operands of `ETH.TRANSMIT`: slot, len. -/
def takeTransmit (bs : List Byte) : Option Instr :=
  (takeSlot bs).bind fun s => (takeNat s.2).bind fun n => some (.ethTransmit s.1 n.1)

/-- Operands of `IP.CREATE`: dest_mac, dest_ip, src_port, dst_port, udp_len. -/
def takeCreate (bs : List Byte) : Option Instr :=
  (takeMac bs).bind fun m => (takeWord32 m.2).bind fun a => (takeWord16 a.2).bind fun s =>
    (takeWord16 s.2).bind fun d => (takeWord16 d.2).bind fun u =>
      some (.ipCreate m.1 a.1 s.1 d.1 u.1)

/-- Operands of `IP.SEND`: slot, payload. -/
def takeSend (bs : List Byte) : Option Instr :=
  (takeSlot bs).bind fun s => (takeString s.2).bind fun p => some (.ipSend s.1 p.1)

/-- Operands of `TFTP.READ_REQUEST`: filename, dest_base, dest_limit, hook, verify. -/
def takeReadRequest (bs : List Byte) : Option Instr :=
  (takeString bs).bind fun f => (takeNat f.2).bind fun b => (takeNat b.2).bind fun l =>
    (takeFlag l.2).bind fun h => (takeFlag h.2).bind fun v =>
      some (.tftpReadRequest f.1 b.1 l.1 h.1 v.1)

/-- The operation a code byte and the bytes after it stand for (R108). -/
def decodeOp (code : Byte) (bs : List Byte) : Except DecodeError Instr :=
  match code with
  | 0x10#8 => .ok .ckReset
  | 0x11#8 => withOperands code (takeAccumulate bs)
  | 0x12#8 => withOperands code (takeAccumulateStream bs)
  | 0x13#8 => .ok .ckFold
  | 0x14#8 => withOperands code (takeValidate bs)
  | 0x15#8 => withOperands code (takeInstall bs)
  | 0x20#8 => .ok .ethCycle
  | 0x21#8 => .ok .ethPoll
  | 0x22#8 => .ok .ethReceive
  | 0x23#8 => .ok .ethDispatch
  | 0x24#8 => withOperands code ((takeNat bs).map fun p => .ethAdvance p.1)
  | 0x25#8 => withOperands code (takeTransmit bs)
  | 0x26#8 => withOperands code ((takeNat bs).map fun p => .ethCheckRetransmit p.1)
  | 0x27#8 => .ok .ethAcknowledge
  | 0x30#8 => .ok .arpHandleRequest
  | 0x40#8 => .ok .ipReceive
  | 0x41#8 => .ok .udpDemux
  | 0x42#8 => withOperands code (takeCreate bs)
  | 0x43#8 => withOperands code ((takeWord16 bs).map fun p => .ipReply p.1)
  | 0x44#8 => withOperands code (takeSend bs)
  | 0x50#8 => .ok .dhcpBoot
  | 0x51#8 => .ok .dhcpReceive
  | 0x52#8 => .ok .dhcpParseOptions
  | 0x60#8 => withOperands code (takeReadRequest bs)
  | 0x61#8 => .ok .tftpReceive
  | 0x62#8 => .ok .tftpComplete
  | 0x70#8 => .ok .irqTick
  | 0x71#8 => withOperands code ((takeBytes 1 bs).map fun p => .fatal (p.1.headD 0))
  | 0x72#8 => .ok .engineBoot
  | _ => .error (.unknownOperation code)

/-! ### The wire codes (R92 to R104) -/

/-- The kind of frame an ethertype selects (R92). -/
def decodeEthertype (et : Word16) : Instr :=
  if et = 0x0806 then .ethArp else if et = 0x0800 then .ethIpv4 else .ethUnknown et

/-- The kind of message an ARP operation selects (R94). -/
def decodeArpOperation (oper : Word16) : Except DecodeError Instr :=
  if oper = 1 then .ok .arpRequest else if oper = 2 then .ok .arpReply
  else .error (.noRow .arp oper.toNat)

/-- The kind of datagram an IP protocol selects (R96). -/
def decodeProtocol (proto : Byte) : Except DecodeError Instr :=
  if proto = 17 then .ok .ipv4Udp else .error (.noRow .ipv4 proto.toNat)

/-- The kind of segment a UDP destination port selects (R99, R245). -/
def decodePort (port : Word16) : Instr :=
  if port = 67 then .udpDhcpServer else if port = 68 then .udpDhcpClient
  else if port = 69 then .udpTftpServer else .udpTftpClient port

/-- The kind of DHCP message a message-type value selects (R103). -/
def decodeMessageType (type : Byte) : Option Instr :=
  match type with
  | 1#8 => some .dhcpDiscover
  | 2#8 => some .dhcpOffer
  | 3#8 => some .dhcpRequest
  | 4#8 => some .dhcpDecline
  | 5#8 => some .dhcpAck
  | 6#8 => some .dhcpNak
  | 7#8 => some .dhcpRelease
  | 8#8 => some .dhcpInform
  | _ => none

/-- The kind of option a code selects (R102). -/
def decodeOptionCode (code : Byte) : Instr :=
  match code with
  | 0#8 => .optPad
  | 12#8 => .optHostname
  | 28#8 => .optBroadcastAddress
  | 50#8 => .optRequestedIp
  | 51#8 => .optLeaseTime
  | 53#8 => .optMessageType
  | 54#8 => .optServerIdentifier
  | 55#8 => .optParameterRequestList
  | 57#8 => .optMaxMessageSize
  | 61#8 => .optClientIdentifier
  | 255#8 => .optEnd
  | c => .optUnknown c

/-- An option unit: the bytes `35 01 t` with a listed type are the message of that type (the table's
rows `DHCP.DISCOVER` to `DHCP.INFORM`), every other unit is the option of its code. -/
def decodeOption (code : Byte) (rest : List Byte) : Instr :=
  match rest with
  | l :: t :: _ =>
    if code = 53 ∧ l = 1 then (decodeMessageType t).getD (decodeOptionCode code)
    else decodeOptionCode code
  | _ => decodeOptionCode code

/-- The kind of TFTP message an opcode selects (R104). -/
def decodeTftpOpcode (op : Word16) : Instr :=
  if op = 1 then .tftpRrq else if op = 3 then .tftpData else if op = 4 then .tftpAck
  else if op = 5 then .tftpError else .tftpOther op

/-- The instruction a code word stands for. Bytes after the last operand are not read. A word of format
`DHCP` has no code field (R100), so it is `DHCP.BOOTP_REPLY` whatever bytes it carries (log 41). -/
def decode (w : CodeWord) : Except DecodeError Instr :=
  match w.format, w.bytes with
  | .op, code :: rest => decodeOp code rest
  | .eth, hi :: lo :: _ => .ok (decodeEthertype (word16 [hi, lo]))
  | .arp, hi :: lo :: _ => decodeArpOperation (word16 [hi, lo])
  | .ipv4, proto :: _ => decodeProtocol proto
  | .udp, hi :: lo :: _ => .ok (decodePort (word16 [hi, lo]))
  | .dhcp, _ => .ok .dhcpBootpReply
  | .dhcpOpt, code :: rest => .ok (decodeOption code rest)
  | .tftp, hi :: lo :: _ => .ok (decodeTftpOpcode (word16 [hi, lo]))
  | f, _ => .error (.missingCode f)

/-! ### The encoder -/

/-- A number of four bytes. -/
def putNat (n : Nat) : List Byte := bytesBE 4 n

/-- A one-byte flag. -/
def putFlag (b : Bool) : List Byte := [if b then 1 else 0]

/-- A slot selector. -/
def putSlot : Slot → List Byte
  | .reg => [0]
  | .prio => [1]

/-- A host-space selector. -/
def putHostSpace : HostSpace → List Byte
  | .buf => [0]
  | .tpl => [1]

/-- A sum-space selector. -/
def putSumSpace : SumSpace → List Byte
  | .buf => [0]
  | .tpl => [1]
  | .pseudo h => 2 :: bytes96 h

/-- An optional pseudo-header. -/
def putOptionalPseudo : Option Pseudo → List Byte
  | none => [0]
  | some h => 1 :: bytes96 h

/-- A byte string after its length. -/
def putString (s : List Byte) : List Byte := putNat s.length ++ s

/-- An operation's code word: its code byte, then its operands. -/
def opWord (code : Byte) (operands : List Byte) : CodeWord := ⟨.op, code :: operands⟩

/-- A 16-bit wire code of a format. -/
def wireWord (f : Format) (code : Word16) : CodeWord := ⟨f, bytes16 code⟩

/-- The code word of an instruction (R108, R92 to R104; operand layout of log 3). -/
def encode : Instr → CodeWord
  | .ckReset => opWord 0x10 []
  | .ckAccumulate s off n => opWord 0x11 (putSumSpace s ++ (putNat off ++ putNat n))
  | .ckAccumulateStream src .buf off n => opWord 0x12 (putNat src ++ (putNat off ++ putNat n))
  | .ckFold => opWord 0x13 []
  | .ckValidate s off n p =>
    opWord 0x14 (putHostSpace s ++ (putNat off ++ (putNat n ++ putOptionalPseudo p)))
  | .ckInstall s off n f => opWord 0x15 (putHostSpace s ++ (putNat off ++ (putNat n ++ putNat f)))
  | .ethCycle => opWord 0x20 []
  | .ethPoll => opWord 0x21 []
  | .ethReceive => opWord 0x22 []
  | .ethDispatch => opWord 0x23 []
  | .ethAdvance next => opWord 0x24 (putNat next)
  | .ethTransmit slot len => opWord 0x25 (putSlot slot ++ putNat len)
  | .ethCheckRetransmit now => opWord 0x26 (putNat now)
  | .ethAcknowledge => opWord 0x27 []
  | .arpHandleRequest => opWord 0x30 []
  | .ipReceive => opWord 0x40 []
  | .udpDemux => opWord 0x41 []
  | .ipCreate m a s d u =>
    opWord 0x42 (bytes48 m ++ (bytes32 a ++ (bytes16 s ++ (bytes16 d ++ bytes16 u))))
  | .ipReply u => opWord 0x43 (bytes16 u)
  | .ipSend slot payload => opWord 0x44 (putSlot slot ++ putString payload)
  | .dhcpBoot => opWord 0x50 []
  | .dhcpReceive => opWord 0x51 []
  | .dhcpParseOptions => opWord 0x52 []
  | .tftpReadRequest f b l h v =>
    opWord 0x60 (putString f ++ (putNat b ++ (putNat l ++ (putFlag h ++ putFlag v))))
  | .tftpReceive => opWord 0x61 []
  | .tftpComplete => opWord 0x62 []
  | .irqTick => opWord 0x70 []
  | .fatal code => opWord 0x71 [code]
  | .engineBoot => opWord 0x72 []
  | .ethArp => wireWord .eth 0x0806
  | .ethIpv4 => wireWord .eth 0x0800
  | .ethUnknown et => wireWord .eth et
  | .arpRequest => wireWord .arp 1
  | .arpReply => wireWord .arp 2
  | .ipv4Udp => ⟨.ipv4, [17]⟩
  | .udpDhcpClient => wireWord .udp 68
  | .udpTftpClient port => wireWord .udp port
  | .udpDhcpServer => wireWord .udp 67
  | .udpTftpServer => wireWord .udp 69
  | .dhcpDiscover => ⟨.dhcpOpt, [53, 1, 1]⟩
  | .dhcpOffer => ⟨.dhcpOpt, [53, 1, 2]⟩
  | .dhcpRequest => ⟨.dhcpOpt, [53, 1, 3]⟩
  | .dhcpDecline => ⟨.dhcpOpt, [53, 1, 4]⟩
  | .dhcpAck => ⟨.dhcpOpt, [53, 1, 5]⟩
  | .dhcpNak => ⟨.dhcpOpt, [53, 1, 6]⟩
  | .dhcpRelease => ⟨.dhcpOpt, [53, 1, 7]⟩
  | .dhcpInform => ⟨.dhcpOpt, [53, 1, 8]⟩
  | .dhcpBootpReply => ⟨.dhcp, []⟩
  | .optPad => ⟨.dhcpOpt, [0]⟩
  | .optHostname => ⟨.dhcpOpt, [12]⟩
  | .optBroadcastAddress => ⟨.dhcpOpt, [28]⟩
  | .optRequestedIp => ⟨.dhcpOpt, [50]⟩
  | .optLeaseTime => ⟨.dhcpOpt, [51]⟩
  | .optMessageType => ⟨.dhcpOpt, [53]⟩
  | .optServerIdentifier => ⟨.dhcpOpt, [54]⟩
  | .optParameterRequestList => ⟨.dhcpOpt, [55]⟩
  | .optMaxMessageSize => ⟨.dhcpOpt, [57]⟩
  | .optClientIdentifier => ⟨.dhcpOpt, [61]⟩
  | .optEnd => ⟨.dhcpOpt, [255]⟩
  | .optUnknown code => ⟨.dhcpOpt, [code]⟩
  | .tftpRrq => wireWord .tftp 1
  | .tftpData => wireWord .tftp 3
  | .tftpAck => wireWord .tftp 4
  | .tftpError => wireWord .tftp 5
  | .tftpOther op => wireWord .tftp op

/-! ### Words as the table numbers them -/

/-- The operation codes of R108. -/
def operationCodes : List Byte :=
  [0x10, 0x11, 0x12, 0x13, 0x14, 0x15, 0x20, 0x21, 0x22, 0x23, 0x24, 0x25, 0x26, 0x27, 0x30, 0x40,
    0x41, 0x42, 0x43, 0x44, 0x50, 0x51, 0x52, 0x60, 0x61, 0x62, 0x70, 0x71, 0x72]

/-- The format a bare 16-bit code is read in (log 4): a number that only one format lists is read in
that format, 1 as an ARP operation, and a number no format lists as an ethertype. -/
def formatOfWord16 (w : Nat) : Format :=
  if w = 1 ∨ w = 2 then .arp
  else if w = 3 ∨ w = 4 ∨ w = 5 then .tftp
  else if w = 67 ∨ w = 68 ∨ w = 69 then .udp
  else .eth

/-- The format a bare 8-bit code is read in (log 4): an operation code if R108 lists it, else an
option code. -/
def formatOfByte (b : Byte) : Format := if b ∈ operationCodes then .op else .dhcpOpt

/-- The bytes of a table word of more than two bytes, the first byte in bits 7 to 0. -/
def bytesUp : Nat → Nat → List Byte
  | 0, _ => []
  | n + 1, w => BitVec.ofNat 8 w :: bytesUp n (w / 256)

/-- The operand bytes a table word leaves out: zeros, as many as the longest operands of fixed size. -/
def zeroOperands : List Byte := List.replicate 24 0

/-- The code word of a table row's bits (log 4): a byte; a 16-bit big-endian word (R66); or, past 16
bits, an option unit of bytes. Every bit above `nbits` is 0. -/
def tableWord (nbits w : Nat) : CodeWord :=
  if nbits = 0 then ⟨.dhcp, []⟩
  else if nbits ≤ 8 then
    ⟨formatOfByte (BitVec.ofNat 8 w), BitVec.ofNat 8 w :: zeroOperands⟩
  else if nbits ≤ 16 then ⟨formatOfWord16 w, bytesBE 2 w ++ zeroOperands⟩
  else ⟨.dhcpOpt, bytesUp ((nbits + 7) / 8) w ++ zeroOperands⟩

/-- The instruction the decoder reads from a table row's bits. -/
def decodeTableWord (nbits w : Nat) : Option Instr := (decode (tableWord nbits w)).toOption

end Sys2Proof
end

