-- ==== Sys2Proof/Machine/State.lean ====
section
/-! DEFINITION. The state of the engine (10_state.md), of the LINK agent as far as the engine sees it
(60_exceptions.md R400), the environment's draws and script (logs 2, 6), the reasons a step can stop,
and the state after reset (70_reset_and_hazards.md R420). Plain data. -/

namespace Sys2Proof.Machine

/-- A byte space: the listed bytes, addresses strictly rising, none equal to what an unlisted address
reads as (log 8). -/
abbrev Memory := List Host.Cell

/-- `RUN_STATE` (R21). Value 3 is never written and is excluded (U20). -/
inductive RunState where
  | running
  | haltedFatal
  | transferred
deriving DecidableEq, Repr

/-- `DHCP_STATE` (R37). -/
inductive DhcpPhase where
  | init
  | awaitingOffer
  | requesting
  | bound
deriving DecidableEq, Repr

/-- The conditions the engine itself raises as fatal (R391). -/
inductive FatalCode where
  | noResponse
  | tftpError
  | tftpBadOpcode
  | tftpBadBlock
  | tftpBadPort
  | signatureMismatch
  | pollTimeout
deriving DecidableEq, Repr

/-- The checksum accumulator (R23). -/
structure Ck where
  sum : Word16
  carry : Bool
  init : Bool
deriving DecidableEq, Repr

/-- What a successful `IP.RECEIVE` hands on (R240, R242): where the UDP data lies in the frame, its
length, and the IP source address. -/
structure IpView where
  off : Nat
  len : Nat
  src : Word32
deriving DecidableEq, Repr

/-- The IP configuration (R28). -/
structure IpConfig where
  host : Word32
  bcast : Word32
  server : Word32
  serverMac : Mac
deriving DecidableEq, Repr

/-- The outstanding priority frame and the retransmission timer (R31 to R33). -/
structure Rtx where
  prioEnd : Nat
  timeout : Nat
  wait : Nat
  start : Nat
deriving DecidableEq, Repr

/-- The DHCP session (R37, R38). -/
structure Dhcp where
  phase : DhcpPhase
  server : Word32
  offered : Word32
deriving DecidableEq, Repr

/-- The TFTP session (R39). -/
structure Tftp where
  active : Bool
  expected : Word16
  latched : Bool
  serverPort : Word16
  clientPort : Word16
  destBase : Nat
  destLimit : Nat
  cursor : Nat
  total : Word32
  hook : Bool
  verify : Bool
deriving DecidableEq, Repr

/-- A frame the receive ring holds: its advertised next-frame pointer and its bytes (R173). -/
structure RxFrame where
  next : Nat
  bytes : List Byte
deriving DecidableEq, Repr

/-- The environment's draws (R16; log 6): for each kind the values given and the position of the next
draw. Past the given values a draw is a free value of Config at that position. -/
structure Draws where
  polls : List Nat
  pollPos : Nat
  jitters : List Nat
  jitterPos : Nat
  ports : List Word16
  portPos : Nat
  transfers : List Bool
  transferPos : Nat
deriving DecidableEq, Repr

/-- What moves next (log 2): a unit to run, or a frame that arrives at the controller. -/
inductive Event where
  | coded (w : CodeWord)
  | arrival (f : RxFrame)
deriving DecidableEq, Repr

/-- An event of the observation log (R10, R402). -/
inductive Obs where
  | tx (slot : Slot) (bytes : List Byte) (retransmission : Bool)
  | boundNotify (host bcast server : Word32)
  | blockHook (block : Word16) (bytes : List Byte)
  | completionHook (total : Word32)
  | fatalNotify (reason : Byte)
  | transferControl (base : Nat) (total : Word32)
deriving DecidableEq, Repr

/-- How far the option iterator has come (R300). `running` until it returns; `idle` before the first
option of a message. -/
inductive OptStatus where
  | idle
  | running
  | done
  | notWellFormed
deriving DecidableEq, Repr

/-- The option iterator's local variables (R300; log 15). -/
structure OptParse where
  k : Nat
  stop : Nat
  type : Option Byte
  bcast : Option Word32
  status : OptStatus
deriving DecidableEq, Repr

/-- No iteration in progress. -/
def optIdle : OptParse := { k := 0, stop := 0, type := none, bcast := none, status := .idle }

/-- What `ETH.RECEIVE` returns (R174). -/
structure RxHeader where
  accepted : Bool
  next : Nat
deriving DecidableEq, Repr

/-- The result of the last operation that has one, when it ran on its own (log 16). -/
inductive OpResult where
  | none
  | word (w : Word16)
  | flag (b : Bool)
  | header (h : RxHeader)
  | recovered
  | options (type : Option Byte) (bcast : Option Word32)
  | notWellFormed
deriving DecidableEq, Repr

/-- Why a step stops with a fault. All of them end the run, so no claim about what follows can be
proved: each is safe. -/
inductive Fault where
  /-- A checksum operation other than `CK.RESET` on a never-reset accumulator (R395, R141, R143). -/
  | ckUninit
  /-- A destination write outside `[DEST_BASE, DEST_LIMIT)` (R395, R72, R344). -/
  | destOverrun
  /-- A frame longer than `TX_SLOT_SIZE` (R395, R178, R252). -/
  | slotOverflow
  /-- A command in a state that does not allow it, or with bad operands (R395, R280, R251, R330,
  R421, R403). -/
  | hostProtocol
  /-- A send whose payload length disagrees with the template's UDP length (R395, R252). -/
  | lengthMismatch
  /-- MAIN has no step: `RUN_STATE` is not RUNNING (R21, R423, U13; log 10). -/
  | mainStopped
deriving DecidableEq, Repr

/-- Why a step refuses. Both are safe: the run ends. -/
inductive Refusal where
  /-- An instruction whose meaning is not written. No arm of `exec` answers so. -/
  | notModelled (mnemonic : String)
  /-- A code word the decoder refuses (R110). -/
  | undecodable (why : DecodeError)
deriving DecidableEq, Repr

/-- The machine. -/
structure State where
  par : Params
  run : RunState
  fatalReason : Byte
  ck : Ck
  buf : Memory
  live : Bool
  liveLen : Word16
  ipView : Option IpView
  tpl : Memory
  ip : IpConfig
  ctrl : Memory
  dest : Memory
  rtx : Rtx
  ticks : Nat
  irqMask : Bool
  rxRdptr : Nat
  dhcp : Dhcp
  tftp : Tftp
  ring : List RxFrame
  linkSteps : Nat
  draws : Draws
  script : List Event
  obs : List Obs
  result : OpResult
  opt : OptParse
deriving DecidableEq, Repr

/-! ### Updates: one per field -/

def State.setRun (s : State) (v : RunState) : State := { s with run := v }
def State.setFatalReason (s : State) (v : Byte) : State := { s with fatalReason := v }
def State.setCk (s : State) (v : Ck) : State := { s with ck := v }
def State.setBuf (s : State) (v : Memory) : State := { s with buf := v }
def State.setLive (s : State) (v : Bool) : State := { s with live := v }
def State.setLiveLen (s : State) (v : Word16) : State := { s with liveLen := v }
def State.setIpView (s : State) (v : Option IpView) : State := { s with ipView := v }
def State.setTpl (s : State) (v : Memory) : State := { s with tpl := v }
def State.setIp (s : State) (v : IpConfig) : State := { s with ip := v }
def State.setCtrl (s : State) (v : Memory) : State := { s with ctrl := v }
def State.setDest (s : State) (v : Memory) : State := { s with dest := v }
def State.setRtx (s : State) (v : Rtx) : State := { s with rtx := v }
def State.setTicks (s : State) (v : Nat) : State := { s with ticks := v }
def State.setIrqMask (s : State) (v : Bool) : State := { s with irqMask := v }
def State.setRxRdptr (s : State) (v : Nat) : State := { s with rxRdptr := v }
def State.setDhcp (s : State) (v : Dhcp) : State := { s with dhcp := v }
def State.setTftp (s : State) (v : Tftp) : State := { s with tftp := v }
def State.setRing (s : State) (v : List RxFrame) : State :=
  { s with ring := v, linkSteps := s.linkSteps + 1 }
def State.setDraws (s : State) (v : Draws) : State := { s with draws := v }
def State.setScript (s : State) (v : List Event) : State := { s with script := v }
def State.emit (s : State) (e : Obs) : State := { s with obs := s.obs ++ [e] }
def State.setResult (s : State) (v : OpResult) : State := { s with result := v }
def State.setOpt (s : State) (v : OptParse) : State := { s with opt := v }

/-- The state after reset for given parameters (R420). The fields R420 calls unspecified (`CK_SUM`,
`CK_CARRY`, `LIVE_LEN`, the contents of the spaces, the TFTP fields a read request writes) are zero:
DESIGN CHOICE (logs 7, 8), unsafe for a claim that leans on them. -/
def State.resetWith (p : Params) : State where
  par := p
  run := .running
  fatalReason := 0
  ck := { sum := 0, carry := false, init := false }
  buf := []
  live := false
  liveLen := 0
  ipView := none
  tpl := []
  ip := { host := 0, bcast := 0, server := 0, serverMac := 0 }
  ctrl := []
  dest := []
  rtx := { prioEnd := p.prioNone, timeout := p.tMin, wait := p.tMin, start := 0 }
  ticks := 0
  irqMask := true
  rxRdptr := p.rxStart
  dhcp := { phase := .init, server := 0, offered := 0 }
  tftp := { active := false, expected := 0, latched := false, serverPort := 0, clientPort := 0,
            destBase := 0, destLimit := 0, cursor := 0, total := 0, hook := false, verify := false }
  ring := []
  linkSteps := 0
  draws := { polls := [], pollPos := 0, jitters := [], jitterPos := 0, ports := [], portPos := 0,
             transfers := [], transferPos := 0 }
  script := []
  obs := []
  result := .none
  opt := optIdle

/-- The state after reset, with the parameter values of Config (log 5). -/
def State.reset : State := State.resetWith Config.resetParams

end Sys2Proof.Machine
end

