-- ==== Sys2Proof/Machine/Memory.lean ====
section
/-! DEFINITION. Reading and writing the byte spaces (00_scope.md R15, 20_memory.md R60). -/

namespace Sys2Proof.Machine

/-- What an unlisted address reads as. DESIGN CHOICE (log 8), unsafe: R420 leaves the contents of every
space at reset unspecified. -/
def Memory.unlisted : Byte := 0

/-- The byte at an address. -/
def Memory.read : Memory → Nat → Byte
  | [], _ => Memory.unlisted
  | c :: m, a => if c.1 = a then c.2 else Memory.read m a

/-- `MemRead(space, addr, n)`: `n` bytes from an address (R15). -/
def Memory.readBytes (m : Memory) (a n : Nat) : List Byte :=
  (List.range n).map fun i => Memory.read m (a + i)

/-- The cells that list a byte string at an address, leaving out the bytes an unlisted address has. -/
def Memory.cells : Nat → List Byte → Memory
  | _, [] => []
  | a, b :: bs =>
    if b = Memory.unlisted then Memory.cells (a + 1) bs else (a, b) :: Memory.cells (a + 1) bs

/-- `MemWrite(space, addr, n, v)`: a byte string at an address (R15). -/
def Memory.write (m : Memory) (a : Nat) (bs : List Byte) : Memory :=
  m.filter (fun c => c.1 < a) ++ Memory.cells a bs ++
    m.filter (fun c => a + bs.length ≤ c.1)

/-- The canonical form: addresses strictly rising, no listed byte equal to an unlisted one's. -/
def Memory.wf : Memory → Bool
  | [] => true
  | c :: m => (c.2 ≠ Memory.unlisted) && m.all (fun d => c.1 < d.1) && Memory.wf m

/-- `BE16(space, a)` (R15). -/
def Memory.be16 (m : Memory) (a : Nat) : Word16 := word16 (Memory.readBytes m a 2)

/-- `BE32(space, a)` (R15). -/
def Memory.be32 (m : Memory) (a : Nat) : Word32 := word32 (Memory.readBytes m a 4)

/-- A hardware address in a space: six bytes (R70, R91). -/
def Memory.mac (m : Memory) (a : Nat) : Mac := word48 (Memory.readBytes m a 6)

end Sys2Proof.Machine
end

