-- ==== Sys2Proof/Machine/Flags.lean ====
section
/-! DEFINITION. The checksum arithmetic with its carry flag (41_checksum.md R139 to R145) and the
timer's expiry arithmetic (42_frame_dispatcher.md R179, R180, R183). -/

namespace Sys2Proof.Machine

/-- A carry bit as a number. -/
def carryIn (c : Bool) : Nat := if c then 1 else 0

/-- `ck_add(w)`: add one word with the previous carry chained in; bit 16 of the sum is the carry of the
next step or of the fold (R139). -/
def ckAdd (c : Ck) (w : Word16) : Ck :=
  let t := c.sum.toNat + w.toNat + carryIn c.carry
  { c with sum := BitVec.ofNat 16 t, carry := decide (65536 ≤ t) }

/-- The accumulator after `CK.RESET` (R140). -/
def ckZero : Ck := { sum := 0, carry := false, init := true }

/-- The loop of `CK.ACCUMULATE` over a byte string: big-endian pairs from its start, an odd last byte
the high byte of a zero-padded word (R141). -/
def ckSum : Ck → List Byte → Ck
  | c, hi :: lo :: rest => ckSum (ckAdd c (word16 [hi, lo])) rest
  | c, [hi] => ckAdd c (word16 [hi, 0])
  | c, [] => c

/-- `CK.FOLD`: add the residual carry, with its own end-around carry (R143). -/
def ckFold (c : Ck) : Word16 :=
  let t := c.sum.toNat + carryIn c.carry
  BitVec.ofNat 16 (t % 65536 + t / 65536)

/-- A received range validates when it folds to all ones (R144). -/
def ckValid (c : Ck) : Bool := decide (ckFold c = 0xffff)

/-- The checksum field that `CK.INSTALL` stores (R145). -/
def ckField (c : Ck) : Word16 := ~~~ ckFold c

/-- Ticks since a wait began, modulo `2^TICK_BITS` (R183). -/
def elapsed (p : Params) (now start : Nat) : Nat :=
  (now + (2 ^ p.tickBits - start % 2 ^ p.tickBits)) % 2 ^ p.tickBits

/-- A wait has expired when at least its length has elapsed (R179). -/
def expired (p : Params) (r : Rtx) (now : Nat) : Bool := decide (r.wait ≤ elapsed p now r.start)

/-- The timeout after an expiry: exactly doubled, clamped at `T_MAX` (R180). -/
def doubled (p : Params) (timeout : Nat) : Nat := min (2 * timeout) p.tMax

end Sys2Proof.Machine
end

