-- ==== Sys2Proof/Machine/Operands.lean ====
section
/-! DEFINITION. The operand forms of the operations: spaces and ranges, slots, the fields of the live
frame (30_encoding.md R91 to R98), length fields. -/

namespace Sys2Proof.Machine

/-- Where a slot starts in controller memory (R30). -/
def slotStart (p : Params) : Slot → Nat
  | .reg => p.txRegStart
  | .prio => p.txPrioStart

/-- How many bytes a host space has (R24, R27). -/
def spaceSize (p : Params) : HostSpace → Nat
  | .buf => p.rxBufSize
  | .tpl => Config.tplSize

/-- The host space a stream read is copied to (log 30). -/
def streamHost : StreamSpace → HostSpace
  | .buf => .buf

/-- A host space's bytes. -/
def spaceMem (s : State) : HostSpace → Memory
  | .buf => s.buf
  | .tpl => s.tpl

/-- A host space with other bytes. -/
def setSpace (s : State) (sp : HostSpace) (m : Memory) : State :=
  match sp with
  | .buf => s.setBuf m
  | .tpl => s.setTpl m

/-- Which space of bytes a host space is. -/
def byteSpace : HostSpace → ByteSpace
  | .buf => .buf
  | .tpl => .tpl

/-- The byte of a space of a given size at an address: a free value at an address the space does not
have (R60; log 9). -/
def spaceByte (sp : ByteSpace) (size : Nat) (m : Memory) (a : Nat) : Byte :=
  if a < size then Memory.read m a else Config.freeByte sp a

/-- `n` bytes of a space of a given size from an address (R15, R60). -/
def spaceBytes (sp : ByteSpace) (size : Nat) (m : Memory) (off n : Nat) : List Byte :=
  (List.range n).map fun i => spaceByte sp size m (off + i)

/-- `n` bytes of a host space from an offset. -/
def hostBytes (s : State) (sp : HostSpace) (off n : Nat) : List Byte :=
  spaceBytes (byteSpace sp) (spaceSize s.par sp) (spaceMem s sp) off n

/-- A space of a given size with a byte string written at an offset: the bytes past the space's end
are written nowhere (R60; log 9). -/
def writeInside (size : Nat) (m : Memory) (off : Nat) (bs : List Byte) : Memory :=
  Memory.write m off (bs.take (size - off))

/-- The byte of a pseudo-header string at an offset: a free value past its 12 bytes (R98; log 9). -/
def pseudoByte (h : Pseudo) (a : Nat) : Byte := (bytes96 h).getD a (Config.freeByte .pseudo a)

/-- The bytes a checksum operation sums over (R141). -/
def sumBytes (s : State) (sp : SumSpace) (off n : Nat) : List Byte :=
  match sp with
  | .buf => hostBytes s .buf off n
  | .tpl => hostBytes s .tpl off n
  | .pseudo h => (List.range n).map fun i => pseudoByte h (off + i)

/-- A length field: the exact sum where it fits in 16 bits, a free value where it does not (R250;
log 24). -/
def lengthField (n : Nat) : Word16 := if n < 65536 then BitVec.ofNat 16 n else Config.freeLength n

/-! ### The live frame -/

/-- The frame is at least `n` bytes long: a read below `n` stays inside it (R71). -/
def frameHas (s : State) (n : Nat) : Bool := decide (n ≤ s.liveLen.toNat)

/-- The Ethernet source address (R91). -/
def ethSource (s : State) : Mac := Memory.mac s.buf 6

/-- The ethertype (R91). -/
def ethType (s : State) : Word16 := Memory.be16 s.buf 12

/-- The ARP operation (R93). -/
def arpOperation (s : State) : Word16 := Memory.be16 s.buf 20

/-- IHL, the low four bits of the first IP byte (R95). -/
def ipIhl (s : State) : Nat := (Memory.read s.buf 14).toNat % 16

/-- The IP header length in bytes, `4 * IHL` (R95, R105). -/
def ipHeaderLen (s : State) : Nat := 4 * ipIhl s

/-- The IP total length (R95). -/
def ipTotalLen (s : State) : Nat := (Memory.be16 s.buf 16).toNat

/-- The IP protocol (R95). -/
def ipProtocol (s : State) : Byte := Memory.read s.buf 23

/-- The IP source address (R95). -/
def ipSource (s : State) : Word32 := Memory.be32 s.buf 26

/-- The IP destination address (R95). -/
def ipDestination (s : State) : Word32 := Memory.be32 s.buf 30

/-- The frame offset of the UDP header, `u = 14 + 4*IHL` (R97). -/
def udpOff (s : State) : Nat := 14 + ipHeaderLen s

/-- The UDP source port (R97). -/
def udpSourcePort (s : State) : Word16 := Memory.be16 s.buf (udpOff s)

/-- The UDP destination port (R97). -/
def udpDestPort (s : State) : Word16 := Memory.be16 s.buf (udpOff s + 2)

/-- The UDP length, of header and data (R97). -/
def udpLen (s : State) : Nat := (Memory.be16 s.buf (udpOff s + 4)).toNat

/-- The UDP checksum field (R97). -/
def udpChecksum (s : State) : Word16 := Memory.be16 s.buf (udpOff s + 6)

/-- Both ports of the UDP header, and the IP header's first byte that places them, lie inside the live
frame (R71). -/
def portsInside (s : State) : Bool := frameHas s 15 && frameHas s (udpOff s + 4)

/-- The UDP data of the live frame: its frame offset `p = u + 8` and its length `L = ulen - 8`, when
the header and all of the data lie inside the frame (R242; R71 where they do not, log 12). -/
def udpData (s : State) : Option (Nat × Nat) :=
  if frameHas s 15 && frameHas s (udpOff s + 8) && decide (8 ≤ udpLen s) &&
      frameHas s (udpOff s + udpLen s) then
    some (udpOff s + 8, udpLen s - 8)
  else none

/-- The pseudo-header's bytes: addresses, zero, protocol 17, UDP length (R98). -/
def pseudoBytes (src dst : Word32) (udpLen : Nat) : List Byte :=
  bytes32 src ++ bytes32 dst ++ [0x00, 0x11] ++ bytesBE 2 udpLen

end Sys2Proof.Machine
end

