-- ==== Sys2Proof/Machine/Ops.lean ====
section
/-! DEFINITION. What every operation is built from: how an operation ends, the fatal condition and the
tick interrupt (60_exceptions.md R384, R390), the draws (00_scope.md R16), and the link primitives
(60_exceptions.md R400, R401). -/

namespace Sys2Proof.Machine

/-- How an operation ends: it returns to its caller (a `drop` returns too, R16); it ends the whole
transition at once, in a fatal condition or a transfer of control (R393, R350); or it is a model fault
(R395). -/
inductive Res (α : Type) where
  | ok (a : α) (s : State)
  | stop (s : State)
  | fault (f : Fault)

/-- One operation after another. A transition that has ended runs nothing more (R393). -/
def Res.bind {α β : Type} (r : Res α) (k : α → State → Res β) : Res β :=
  match r with
  | .ok a s => k a s
  | .stop s => .stop s
  | .fault f => .fault f

/-- An operation without a result, then another. -/
def Res.andThen {β : Type} (r : Res Unit) (k : State → Res β) : Res β :=
  r.bind fun _ s => k s

/-- The end of an operation that has no result. -/
def done (s : State) : Res Unit := .ok () s

/-- The outcome of a transition (R9): a fatal condition and a transfer of control are next states. -/
def Res.outcome {α : Type} : Res α → Host.Outcome State Fault Refusal
  | .ok _ s => .next s
  | .stop s => .next s
  | .fault f => .fault f

/-- Run an operation as a transition of MAIN, which has steps only while RUNNING (R21; log 10). -/
def runMain {α : Type} (s : State) (f : State → Res α) : Host.Outcome State Fault Refusal :=
  if s.run = .running then (f s).outcome else .fault .mainStopped

/-! ### The fatal condition and the tick interrupt -/

/-- The reason codes of R391. -/
def fatalByte : FatalCode → Byte
  | .noResponse => 0x01
  | .tftpError => 0x02
  | .tftpBadOpcode => 0x03
  | .tftpBadBlock => 0x04
  | .tftpBadPort => 0x05
  | .signatureMismatch => 0x06
  | .pollTimeout => 0x07

/-- The condition a reason code names; the other codes are never raised (R391). -/
def fatalCodeOf : Byte → Option FatalCode
  | 0x01#8 => some .noResponse
  | 0x02#8 => some .tftpError
  | 0x03#8 => some .tftpBadOpcode
  | 0x04#8 => some .tftpBadBlock
  | 0x05#8 => some .tftpBadPort
  | 0x06#8 => some .signatureMismatch
  | 0x07#8 => some .pollTimeout
  | _ => none

/-- Entry to the fatal condition: the reason, the terminal control point, the callback; nothing is
saved and nothing cleaned (R390). There is no return from it (R392). -/
def enterFatal (s : State) (code : Byte) : State :=
  ((s.setFatalReason code).setRun .haltedFatal).emit (.fatalNotify code)

/-- `raise Fatal(code)`: entry, and the end of the transition (R16, R390, R393). -/
def raiseFatal {α : Type} (c : FatalCode) (s : State) : Res α := .stop (enterFatal s (fatalByte c))

/-- The tick interrupt: it counts, modulo `2^TICK_BITS`, unless it is masked, and returns to the point
between transitions where it was taken, restoring nothing (R384, R392). -/
def takeTick (s : State) : State :=
  if s.irqMask then s else s.setTicks ((s.ticks + 1) % 2 ^ s.par.tickBits)

/-- The tick sample at the start of an atomic transition (R170): the mask is set around the read and is
then what it was, 0 once ENGINE.BOOT has enabled the interrupt and 1 until then (R34, R386, D59;
log 39). The sample is `ticks`, which no MAIN operation writes, so every use of "now" in the transition
reads it there. -/
def sampleTicks (s : State) : State := (s.setIrqMask true).setIrqMask s.irqMask

/-- Transfer of control: the terminal control point and its event; the engine takes no further step
(R350; log 19). -/
def transferControl {α : Type} (s : State) : Res α :=
  .stop ((s.setRun .transferred).emit (.transferControl s.tftp.destBase s.tftp.total))

/-! ### Draws -/

/-- How many polls the next bounded wait needs: a draw of LINK (R401; log 6). -/
def pollsNeeded (s : State) : Nat :=
  s.draws.polls.getD s.draws.pollPos (Config.freePolls s.draws.pollPos)

/-- The next jitter: a draw in `[0, JITTER_MAX]` (R180; log 6). -/
def jitterDraw (s : State) : Nat :=
  min (s.draws.jitters.getD s.draws.jitterPos (Config.freeJitter s.draws.jitterPos)) s.par.jitterMax

/-- A port in `[1, 65535]` other than 68: a value outside that set stands for port 1 (R332; log 6). -/
def legalPort (w : Word16) : Word16 := if w = 0 ∨ w = 68 then 1 else w

/-- The next client port: a draw from `[1, 65535]` minus 68 (R332; log 6). -/
def portDraw (s : State) : Word16 :=
  legalPort (s.draws.ports.getD s.draws.portPos (Config.freePort s.draws.portPos))

/-- The completion hook's choice, whether it transfers control: a draw of UPPER (R347; log 6). -/
def transferDraw (s : State) : Bool :=
  s.draws.transfers.getD s.draws.transferPos (Config.freeTransfer s.draws.transferPos)

/-- One bounded wait has been drawn. -/
def usePoll (s : State) : State := s.setDraws { s.draws with pollPos := s.draws.pollPos + 1 }

/-- One jitter has been drawn. -/
def useJitter (s : State) : State := s.setDraws { s.draws with jitterPos := s.draws.jitterPos + 1 }

/-- One client port has been drawn. -/
def usePort (s : State) : State := s.setDraws { s.draws with portPos := s.draws.portPos + 1 }

/-- One hook outcome has been drawn. -/
def useTransfer (s : State) : State :=
  s.setDraws { s.draws with transferPos := s.draws.transferPos + 1 }

/-! ### Link primitives -/

/-- A bounded wait: a polling loop of at most `POLL_CAP` iterations, which completes or is fatal with
the state as the primitive found it (R401). -/
def boundedWait (s : State) : Res Unit :=
  if pollsNeeded s ≤ s.par.pollCap then done (usePoll s) else raiseFatal .pollTimeout (usePoll s)

/-- `Link.Init()`: the link is up, the receive ring empty (R400). -/
def linkInit (s : State) : Res Unit := (boundedWait s).andThen fun s => done (s.setRing [])

/-- `Link.Reinit()`: the receive ring is emptied; the transmit slots keep their bytes (R400, R79). -/
def linkReinit (s : State) : Res Unit := (boundedWait s).andThen fun s => done (s.setRing [])

/-- `Link.PacketCount()`: the 8-bit count of frames the ring holds (R400; log 20). -/
def packetCount (s : State) : Byte := BitVec.ofNat 8 (min s.ring.length 255)

/-- The frame at the read cursor; a free frame where the ring holds none (R400; log 21). -/
def pendingFrame (s : State) : RxFrame :=
  match s.ring with
  | f :: _ => f
  | [] =>
    let free := Config.freeFrame s.linkSteps s.rxRdptr
    ⟨free.1, free.2⟩

/-- A frame's length as the link reports it, 16 bits (R12, R173; log 23). -/
def frameLen (f : RxFrame) : Nat := f.bytes.length % 65536

/-- `Link.ReadFrame(p)` at the read cursor (R400, R173). -/
def linkReadFrame (s : State) : Res RxFrame :=
  (boundedWait s).andThen fun s => .ok (pendingFrame s) s

/-- `CK.ACCUMULATE` over a byte string: R141's loop, on an accumulator that has been reset (R141,
R23). -/
def ckAccumulate (bs : List Byte) (s : State) : Res Unit :=
  if s.ck.init then done (s.setCk (ckSum s.ck bs)) else .fault .ckUninit

/-- `Link.StreamRead` of the frame at the read cursor: the checksum engine accumulates the bytes as a
side effect of the copy (R174, R142, R400; log 17). -/
def linkStreamFrame (f : RxFrame) (s : State) : Res (List Byte) :=
  (boundedWait s).andThen fun s =>
    let bs := f.bytes.take (frameLen f)
    (ckAccumulate bs s).andThen fun s => .ok bs s

/-- An offset of controller memory inside the receive ring (R62). -/
def ringHas (p : Params) (a : Nat) : Bool := decide (p.rxStart ≤ a) && decide (a ≤ p.rxEnd)

/-- The frame that stands at an offset, the first frame standing at a given one and each later frame at
the next-frame pointer of the frame before it (R173; log 22). A pointer outside the ring leads to no
frame (R177). -/
def frameAt (p : Params) : Nat → List RxFrame → Nat → Option RxFrame
  | _, [], _ => none
  | place, f :: fs, a =>
    if a = place then some f else if ringHas p f.next then frameAt p f.next fs a else none

/-- The byte at an index of `Link.StreamRead` from an offset (R400): a frame's own where a frame stands
at the offset, a free value past that frame's end and at any other place of the receive ring, and
controller memory's byte outside the ring (R60; logs 9, 22). -/
def streamByte (s : State) (p k : Nat) : Byte :=
  match frameAt s.par s.rxRdptr s.ring p with
  | some f => (f.bytes.take (frameLen f)).getD k (Config.freeRing s.linkSteps p k)
  | none =>
    if ringHas s.par p || ringHas s.par (p + k) then Config.freeRing s.linkSteps p k
    else spaceByte .ctrl s.par.ctrlMemSize s.ctrl (p + k)

/-- The bytes `Link.StreamRead(p, n)` finds (R400). -/
def streamBytes (s : State) (p n : Nat) : List Byte := (List.range n).map (streamByte s p)

/-- `Link.StreamWrite(a, bytes)` (R400). -/
def linkStreamWrite (a : Nat) (bs : List Byte) (s : State) : Res Unit :=
  (boundedWait s).andThen fun s => done (s.setCtrl (Memory.write s.ctrl a bs))

/-- `Link.Advance(next)`: the frame at the read cursor is freed and the count drops by one (R400,
R73). -/
def linkAdvance (s : State) : Res Unit := (boundedWait s).andThen fun s => done (s.setRing s.ring.tail)

/-- `Link.Transmit(start, end)`: it returns when the hardware reports completion (R400, R76). What was
sent is the event its caller emits. -/
def linkTransmit (s : State) : Res Unit := boundedWait s

/-- A LINK step: a frame arrives. The 8-bit count bounds the ring at 255 frames; a frame that finds it
full is lost (R7, R400; log 20). -/
def linkArrival (f : RxFrame) (s : State) : State :=
  if s.ring.length < 255 then s.setRing (s.ring ++ [f]) else s

end Sys2Proof.Machine
end

