-- ==== Sys2Proof/Machine/Checksum.lean ====
section
/-! DEFINITION. The Checksum Engine operations (41_checksum.md R140 to R145). -/

namespace Sys2Proof.Machine

/-- `CK.RESET` (R140). -/
def ckReset (s : State) : State := s.setCk ckZero

/-- `CK.ACCUMULATE space, off, n` (R141). -/
def ckAccumulateRange (sp : SumSpace) (off n : Nat) (s : State) : Res Unit :=
  ckAccumulate (sumBytes s sp off n) s

/-- A host space with a byte string written at an offset (R15; log 9). -/
def hostWrite (sp : HostSpace) (off : Nat) (bs : List Byte) (s : State) : State :=
  setSpace s sp (writeInside (spaceSize s.par sp) (spaceMem s sp) off bs)

/-- `CK.ACCUMULATE_STREAM src, dst, n`: a stream read, the copy, and the sum over the copied bytes
(R142). The destination is in `BUF`: `TPL` and `DEST` have no writers but their own rules (R27, R253,
R61; log 30). -/
def ckStream (src : Nat) (d : StreamSpace) (off n : Nat) (s : State) : Res Unit :=
  (boundedWait s).andThen fun s =>
    ckAccumulate (streamBytes s src n) (hostWrite (streamHost d) off (streamBytes s src n) s)

/-- `CK.FOLD`: the folded value; the accumulator is unchanged (R143). -/
def ckFoldValue (s : State) : Res Word16 :=
  if s.ck.init then .ok (ckFold s.ck) s else .fault .ckUninit

/-- The accumulator after validating a byte string, with the optional pseudo-header summed first
(R144). -/
def ckOver (pseudo bs : List Byte) : Ck := ckSum (ckSum ckZero pseudo) bs

/-- `CK.VALIDATE` over a byte string: the expansion of R109 and whether it is valid (R144). -/
def ckValidate (pseudo bs : List Byte) (s : State) : Bool × State :=
  (ckValid (ckOver pseudo bs), s.setCk (ckOver pseudo bs))

/-- `CK.INSTALL` on a space's bytes: the field zeroed, the range summed, the complement stored (R145).
The bytes and the accumulator it leaves. -/
def ckInstallIn (sp : ByteSpace) (size : Nat) (m : Memory) (off n field : Nat) : Memory × Ck :=
  let m0 := writeInside size m field [0, 0]
  let c := ckOver [] (spaceBytes sp size m0 off n)
  (writeInside size m0 field (bytes16 (ckField c)), c)

/-- `CK.INSTALL space, off, n, field` (R145). Over `TPL`, as `IP.CREATE` runs it (R250), it writes the
field; a lone one does too (log 43). -/
def ckInstall (sp : HostSpace) (off n field : Nat) (s : State) : State :=
  let r := ckInstallIn (byteSpace sp) (spaceSize s.par sp) (spaceMem s sp) off n field
  (setSpace s sp r.1).setCk r.2

/-! ### Meanings -/

/-- 0x10 (R140). -/
def execCkReset (s : State) : Host.Outcome State Fault Refusal := runMain s fun s => done (ckReset s)

/-- 0x11 (R141). -/
def execCkAccumulate (sp : SumSpace) (off n : Nat) (s : State) :
    Host.Outcome State Fault Refusal := runMain s (ckAccumulateRange sp off n)

/-- 0x12 (R142). -/
def execCkAccumulateStream (src : Nat) (d : StreamSpace) (off n : Nat) (s : State) :
    Host.Outcome State Fault Refusal := runMain s (ckStream src d off n)

/-- 0x13 (R143). -/
def execCkFold (s : State) : Host.Outcome State Fault Refusal :=
  runMain s fun s => (ckFoldValue s).bind fun w s => done (s.setResult (.word w))

/-- 0x14 (R144). -/
def execCkValidate (sp : HostSpace) (off n : Nat) (pseudo : Option Pseudo) (s : State) :
    Host.Outcome State Fault Refusal :=
  runMain s fun s =>
    let r := ckValidate ((pseudo.map bytes96).getD []) (hostBytes s sp off n) s
    done (r.2.setResult (.flag r.1))

/-- 0x15 (R145). -/
def execCkInstall (sp : HostSpace) (off n field : Nat) (s : State) :
    Host.Outcome State Fault Refusal := runMain s fun s => done (ckInstall sp off n field s)

end Sys2Proof.Machine
end

