-- ==== Sys2Proof/Machine/Transmit.lean ====
section
/-! DEFINITION. The transmit side of the Frame Dispatcher: transmission, the retransmission timer and
the acknowledgment (42_frame_dispatcher.md R178 to R185). "now" is `ticks` (R170, `sampleTicks`). -/

namespace Sys2Proof.Machine

/-- A fresh wait for the priority frame that ends at an offset: the timer at its minimum, dated from
now (R178). -/
def freshWait (s : State) (prioEnd : Nat) : State :=
  s.setRtx { prioEnd := prioEnd, timeout := s.par.tMin, wait := s.par.tMin, start := s.ticks }

/-- The retransmission state as a transmission from a slot leaves it: only a priority frame is
tracked (R178, R30). -/
def trackSlot (slot : Slot) (len : Nat) (s : State) : State :=
  match slot with
  | .prio => freshWait s (s.par.txPrioStart + len)
  | .reg => s

/-- `ETH.TRANSMIT slot, len`: the first `len` bytes of the slot go out as one frame (R178). The rule's
pseudocode has no line for SLOT_OVERFLOW; it is tested first, before the wait for completion
(log 40). A length past R12's 16 bits is taken as given: sent if the slot is that large (log 45). -/
def ethTransmit (slot : Slot) (len : Nat) (s : State) : Res Unit :=
  if len ≤ s.par.txSlotSize then
    (linkTransmit (trackSlot slot len s)).andThen fun s =>
      done (s.emit (.tx slot (Memory.readBytes s.ctrl (slotStart s.par slot) len) false))
  else .fault .slotOverflow

/-- The bytes of the outstanding priority frame, resident in controller memory (R180, R79). -/
def prioBytes (s : State) : List Byte :=
  Memory.readBytes s.ctrl s.par.txPrioStart (s.rtx.prioEnd - s.par.txPrioStart)

/-- The retransmission state after an expiry: the timeout doubled and clamped, the jitter on the wait
alone (R180). -/
def backedOff (s : State) (now : Nat) : Rtx :=
  { s.rtx with timeout := doubled s.par s.rtx.timeout,
               wait := doubled s.par s.rtx.timeout + jitterDraw s,
               start := now % 2 ^ s.par.tickBits }

/-- Retransmission of the outstanding frame from the priority slot (R180). -/
def retransmit (now : Nat) (s : State) : Res Unit :=
  (linkTransmit s).andThen fun s =>
    let sent := s.emit (.tx .prio (prioBytes s) true)
    done (useJitter (sent.setRtx (backedOff sent now)))

/-- `ETH.CHECK_RETRANSMIT now` (R179, R182). -/
def ethCheckRetransmit (now : Nat) (s : State) : Res Unit :=
  if s.rtx.prioEnd = s.par.prioNone then done s
  else if expired s.par s.rtx now then
    if s.par.tMax ≤ s.rtx.timeout then raiseFatal .noResponse s else retransmit now s
  else done s

/-- `ETH.ACKNOWLEDGE`: nothing outstanding, the timer at its minimum (R181). -/
def ethAcknowledge (s : State) : State :=
  s.setRtx { s.rtx with prioEnd := s.par.prioNone, timeout := s.par.tMin, wait := s.par.tMin }

/-! ### Meanings -/

/-- 0x25 (R178). -/
def execEthTransmit (slot : Slot) (len : Nat) (s : State) : Host.Outcome State Fault Refusal :=
  runMain s (ethTransmit slot len)

/-- 0x26 (R179). -/
def execEthCheckRetransmit (now : Nat) (s : State) : Host.Outcome State Fault Refusal :=
  runMain s (ethCheckRetransmit now)

/-- 0x27 (R181). -/
def execEthAcknowledge (s : State) : Host.Outcome State Fault Refusal :=
  runMain s fun s => done (ethAcknowledge s)

end Sys2Proof.Machine
end

