-- ==== Sys2Proof/Machine/Arp.lean ====
section
/-! DEFINITION. The Address Resolver (43_arp.md R220 to R223) and the ARP wire codes (R94). -/

namespace Sys2Proof.Machine

/-- The checks of a request: room for the message, the hardware and protocol types and lengths, the
operation, a configured host, and the host as the target (R220, R94). -/
def arpAccepted (oper : Word16) (s : State) : Bool :=
  frameHas s 42 && decide (Memory.be16 s.buf 14 = 1) && decide (Memory.be16 s.buf 16 = 0x0800) &&
    decide (Memory.read s.buf 18 = 6) && decide (Memory.read s.buf 19 = 4) && decide (oper = 1) &&
    decide (s.ip.host ≠ 0) && decide (Memory.be32 s.buf 38 = s.ip.host)

/-- The reply, built in place: Ethernet addresses (0 to 11), then the operation, the local addresses as
sender and the request's sender as target (20 to 41). Bytes 12 to 19 stay (R222). -/
def arpReplyIn (s : State) : Memory :=
  let sha := bytes48 (Memory.mac s.buf 22)
  let spa := bytes32 (Memory.be32 s.buf 28)
  let eth := Memory.write s.buf 0 (sha ++ bytes48 s.par.localMac)
  Memory.write eth 20 (bytes16 2 ++ bytes48 s.par.localMac ++ bytes32 s.ip.host ++ sha ++ spa)

/-- The reply built and put at the start of the regular slot (R222). No wait of this stream write can
expire: the only exception R222 and R220 give is the transmit wait's (log 18). -/
def arpBuild (s : State) : State :=
  let s1 := s.setBuf (arpReplyIn s)
  s1.setCtrl (Memory.write s1.ctrl s1.par.txRegStart (Memory.readBytes s1.buf 0 42))

/-- `ARP.HANDLE_REQUEST` of the live frame for a given operation value: the reply, or a drop (R220,
R222, R223). -/
def arpHandleBy (oper : Word16) (s : State) : Res Unit :=
  if arpAccepted oper s then ethTransmit .reg 42 (arpBuild s) else done s

/-- `ARP.HANDLE_REQUEST` (R220). -/
def arpHandle (s : State) : Res Unit := arpHandleBy (arpOperation s) s

/-! ### Meanings -/

/-- 0x30 (R220). -/
def execArpHandleRequest (s : State) : Host.Outcome State Fault Refusal := runMain s arpHandle

/-- ARP operation 1 (R220). -/
def execArpRequest (s : State) : Host.Outcome State Fault Refusal := runMain s (arpHandleBy 1)

/-- ARP operation 2, received: dropped (R220). The one the engine sends is built by `arpReplyIn`
(R222). -/
def execArpReply (s : State) : Host.Outcome State Fault Refusal := runMain s (arpHandleBy 2)

end Sys2Proof.Machine
end

