-- ==== Sys2Proof/Machine/IpSend.lean ====
section
/-! DEFINITION. Header construction and sending (44_ip_udp.md R250 to R253). -/

namespace Sys2Proof.Machine

/-- The Ethernet header of a datagram to send (R250, R91). -/
def ethHeader (p : Params) (destMac : Mac) : List Byte :=
  bytes48 destMac ++ bytes48 p.localMac ++ [0x08, 0x00]

/-- The IP header of a datagram to send, its checksum field zero (R250, R95). -/
def ipHeader (srcIp destIp : Word32) (udpLen : Word16) : List Byte :=
  [0x45, 0x00] ++ bytes16 (lengthField (20 + udpLen.toNat)) ++ [0x00, 0x00] ++ [0x00, 0x00] ++
    [Config.ipTtl, 17] ++ [0x00, 0x00] ++ bytes32 srcIp ++ bytes32 destIp

/-- The UDP header of a datagram to send; its checksum is left zero (R250, R97). -/
def udpHeader (srcPort dstPort udpLen : Word16) : List Byte :=
  bytes16 srcPort ++ bytes16 dstPort ++ bytes16 udpLen ++ [0x00, 0x00]

/-- `IP.CREATE`: all 42 bytes of the template, with the IP checksum installed (R250, R253). The source
address is whatever `HOST_IP` holds. -/
def ipCreate (destMac : Mac) (destIp : Word32) (srcPort dstPort udpLen : Word16) (s : State) :
    State :=
  let t := Memory.write s.tpl 0
    (ethHeader s.par destMac ++ ipHeader s.ip.host destIp udpLen ++ udpHeader srcPort dstPort udpLen)
  let r := ckInstallIn .tpl Config.tplSize t 14 20 24
  (s.setTpl r.1).setCk r.2

/-- `IP.REPLY`: a template to the sender of the live frame, which passed `IP.RECEIVE` (R251, R242). Its
addresses lie inside every frame that passed (`viewInside`); the ports stand where the header's length
in `BUF` now says, and a frame that ends before them is dropped (R71). -/
def ipReply (udpLen : Word16) (s : State) : Res Unit :=
  if s.live ∧ s.ipView.isSome then
    if portsInside s then
      done (ipCreate (ethSource s) (ipSource s) (udpDestPort s) (udpSourcePort s) udpLen s)
    else done s
  else .fault .hostProtocol

/-- `IP.SEND`: the template and the payload, at the start of the slot, go out (R252). A frame longer
than its slot is `ETH.TRANSMIT`'s fault, after the stream write's wait (R387); one past 65535 bytes is sent if the slot is that large
(log 45). -/
def ipSend (slot : Slot) (payload : List Byte) (s : State) : Res Unit :=
  if (Memory.be16 s.tpl 38).toNat = 8 + payload.length then
    (linkStreamWrite (slotStart s.par slot) (Memory.readBytes s.tpl 0 42 ++ payload) s).andThen
      (ethTransmit slot (42 + payload.length))
  else .fault .lengthMismatch

/-! ### Meanings -/

/-- 0x42 (R250). -/
def execIpCreate (destMac : Mac) (destIp : Word32) (srcPort dstPort udpLen : Word16) (s : State) :
    Host.Outcome State Fault Refusal :=
  runMain s fun s => done (ipCreate destMac destIp srcPort dstPort udpLen s)

/-- 0x43 (R251). -/
def execIpReply (udpLen : Word16) (s : State) : Host.Outcome State Fault Refusal :=
  runMain s (ipReply udpLen)

/-- 0x44 (R252). -/
def execIpSend (slot : Slot) (payload : List Byte) (s : State) : Host.Outcome State Fault Refusal :=
  runMain s (ipSend slot payload)

end Sys2Proof.Machine
end

