-- ==== Sys2Proof/Machine/Dhcp.lean ====
section
/-! DEFINITION. The Host Configuration Client (45_dhcp.md R280 to R307) and the DHCP wire codes: the
message types of R103, the BOOTP reply of R286, the options of R102. -/

namespace Sys2Proof.Machine

/-! ### Sending -/

/-- An outbound message with its options, padded to `DHCP_PAD_TO` (R281). -/
def dhcpMessage (p : Params) (options : List Byte) : List Byte :=
  let m := [1, 1, 6, 0] ++ bytes32 p.dhcpXid ++ bytes16 0 ++ bytes16 0 ++ List.replicate 16 0 ++
    bytes48 p.localMac ++ List.replicate 10 0 ++ List.replicate 192 0 ++
    [0x63, 0x82, 0x53, 0x63] ++ options
  m ++ List.replicate (p.dhcpPadTo - m.length) 0

/-- The options of a DISCOVER (R282). -/
def discoverOptions (p : Params) : List Byte := [53, 1, 1] ++ p.dhcpExtraOptions ++ [255]

/-- The options of a REQUEST, naming the offered address and the server (R283). -/
def requestOptions (p : Params) (offered server : Word32) : List Byte :=
  [53, 1, 3] ++ ([50, 4] ++ bytes32 offered) ++ ([54, 4] ++ bytes32 server) ++
    p.dhcpExtraOptions ++ [255]

/-- A message broadcast from the client port to the server port, in the priority slot (R280, R290). -/
def dhcpBroadcast (m : List Byte) (s : State) : Res Unit :=
  ipSend .prio m (ipCreate Config.broadcastMac Config.broadcastIp Config.dhcpClientPort
    Config.dhcpServerPort (lengthField (8 + m.length)) s)

/-- A later state of the machine of R37. -/
def setPhase (s : State) (ph : DhcpPhase) : State := s.setDhcp { s.dhcp with phase := ph }

/-- `DHCP.BOOT`: broadcast the DISCOVER (R280). -/
def dhcpBoot (s : State) : Res Unit :=
  if s.dhcp.phase = .init then
    (dhcpBroadcast (dhcpMessage s.par (discoverOptions s.par)) s).andThen fun s =>
      done (setPhase s .awaitingOffer)
  else .fault .hostProtocol

/-! ### Options -/

/-- One pass of the option loop, for the option of code `c` at `k` (R300 to R305). -/
def optPass (buf : Memory) (c : Byte) (q : OptParse) : OptParse :=
  if c = 0 then { q with k := q.k + 1 }
  else if c = 255 then { q with status := .done }
  else if q.stop ≤ q.k + 1 then { q with status := .notWellFormed }
  else
    let l := (Memory.read buf (q.k + 1)).toNat
    if q.stop < q.k + 2 + l then { q with status := .notWellFormed }
    else if c = 53 then
      if l = 0 then { q with status := .notWellFormed }
      else { q with type := some (Memory.read buf (q.k + 2)), k := q.k + 2 + l }
    else if c = 28 then
      if l = 4 then { q with bcast := some (Memory.be32 buf (q.k + 2)), k := q.k + 2 + l }
      else { q with status := .notWellFormed }
    else { q with k := q.k + 2 + l }

/-- The iterator's end test, then one pass for the code in the message (R300). An iterator that starts
past the end of the data has nothing to read (R71). -/
def optNext (buf : Memory) (q : OptParse) : OptParse :=
  if q.k = q.stop then { q with status := .done }
  else if q.stop < q.k then { q with status := .notWellFormed }
  else optPass buf (Memory.read buf q.k) q

/-- The loop: `k` grows at every pass, so as many passes as there are bytes and one more end it
(R300). -/
def optRun (buf : Memory) : Nat → OptParse → OptParse
  | 0, q => q
  | fuel + 1, q => if q.status = .running then optRun buf fuel (optNext buf q) else q

/-- The iterator before the first option of the UDP data at `p`, length `len` (R300). -/
def optStart (p len : Nat) : OptParse :=
  { k := p + 240, stop := p + len, type := none, bcast := none, status := .running }

/-- `DHCP.PARSE_OPTIONS` of a message (R300). -/
def parseOptions (buf : Memory) (p len : Nat) : OptParse :=
  optRun buf (len + 1) (optStart p len)

/-! ### Receiving -/

/-- OFFER accepted: remember the server and the address, broadcast the REQUEST (R290). -/
def dhcpAcceptOffer (yi : Word32) (s : State) : Res Unit :=
  let s1 := s.setDhcp { s.dhcp with server := ipSource s, offered := yi }
  (dhcpBroadcast (dhcpMessage s.par (requestOptions s.par yi (ipSource s))) s1).andThen fun s =>
    done (setPhase s .requesting)

/-- Binding: adopt the configuration, acknowledge the REQUEST, notify the upper layer (R292, R295). -/
def dhcpBind (yi : Word32) (bcast : Option Word32) (s : State) : State :=
  let cfg : IpConfig := { host := yi, bcast := bcast.getD Config.broadcastIp,
                          server := s.dhcp.server, serverMac := ethSource s }
  (ethAcknowledge (setPhase (s.setIp cfg) .bound)).emit (.boundNotify cfg.host cfg.bcast cfg.server)

/-- The event classification: exactly one arm, in this order (R286, R293, R294). -/
def dhcpClassify (type : Option Byte) (bcast : Option Word32) (yi : Word32) (s : State) : Res Unit :=
  if s.dhcp.phase = .awaitingOffer ∧ type = some 2 ∧ yi ≠ 0 then dhcpAcceptOffer yi s
  else if s.dhcp.phase = .requesting ∧ ipSource s = s.dhcp.server ∧ type = some 5 ∧ yi ≠ 0 then
    done (dhcpBind yi bcast s)
  else if s.dhcp.phase = .requesting ∧ ipSource s = s.dhcp.server ∧ type = none ∧ yi ≠ 0 then
    done (dhcpBind yi bcast s)
  else done s

/-- `DHCP.RECEIVE` of the live frame with the message type read by a function of the parsed options:
a message too short or not well formed is dropped (R285, R303). -/
def dhcpReceiveBy (typeOf : OptParse → Option Byte) (s : State) : Res Unit :=
  match udpData s with
  | none => done s
  | some (p, len) =>
    if len < 240 then done s
    else
      let q := parseOptions s.buf p len
      if q.status = .done then dhcpClassify (typeOf q) q.bcast (Memory.be32 s.buf (p + 16)) s
      else done s

/-- `DHCP.RECEIVE`: the type is the one the options carry (R285). -/
def dhcpReceive (s : State) : Res Unit := dhcpReceiveBy (fun q => q.type) s

/-- The live message received as one of a given type, or of none (log 14). -/
def dhcpReceiveAs (type : Option Byte) (s : State) : Res Unit := dhcpReceiveBy (fun _ => type) s

/-- The iterator a lone option unit is read with: the one in progress, whose data lies inside the live
frame (R71), or a new one at the first option of the live message (log 15). -/
def optCurrent (s : State) : Option OptParse :=
  if s.opt.status = .running then if frameHas s s.opt.stop then some s.opt else none
  else (udpData s).map fun d => optStart d.1 d.2

/-- A lone option unit of code `c`: one pass of the loop where the message has a byte left, the end of
the list where it has none, nothing where there is no message (R300; log 15). -/
def optUnit (c : Byte) (s : State) : State :=
  match optCurrent s with
  | none => s
  | some q =>
    if q.k = q.stop then s.setOpt { q with status := .done }
    else if q.stop < q.k then s.setOpt { q with status := .notWellFormed }
    else s.setOpt (optPass s.buf c q)

/-- The result of `DHCP.PARSE_OPTIONS` (R300). -/
def optResult (q : OptParse) : OpResult :=
  if q.status = .done then .options q.type q.bcast else .notWellFormed

/-! ### Meanings -/

/-- 0x50 (R280). -/
def execDhcpBoot (s : State) : Host.Outcome State Fault Refusal := runMain s dhcpBoot

/-- 0x51 (R285). -/
def execDhcpReceive (s : State) : Host.Outcome State Fault Refusal := runMain s dhcpReceive

/-- 0x52 (R300). A frame with no complete UDP datagram is dropped, with no result (R71; log 12). -/
def execDhcpParseOptions (s : State) : Host.Outcome State Fault Refusal :=
  runMain s fun s =>
    match udpData s with
    | none => done s
    | some (p, len) =>
      let q := parseOptions s.buf p len
      done ((s.setOpt q).setResult (optResult q))

/-- Message type 1, received: in no arm of R286, ignored (R293). The one the engine sends is built by
`discoverOptions` (R282). -/
def execDhcpDiscover (s : State) : Host.Outcome State Fault Refusal :=
  runMain s (dhcpReceiveAs (some 1))

/-- Message type 2 (R286 row 1, R290). -/
def execDhcpOffer (s : State) : Host.Outcome State Fault Refusal :=
  runMain s (dhcpReceiveAs (some 2))

/-- Message type 3, received: ignored (R293). The one the engine sends is built by `requestOptions`
(R283). -/
def execDhcpRequest (s : State) : Host.Outcome State Fault Refusal :=
  runMain s (dhcpReceiveAs (some 3))

/-- Message type 4: ignored (R293). -/
def execDhcpDecline (s : State) : Host.Outcome State Fault Refusal :=
  runMain s (dhcpReceiveAs (some 4))

/-- Message type 5 (R286 row 2, R292). -/
def execDhcpAck (s : State) : Host.Outcome State Fault Refusal := runMain s (dhcpReceiveAs (some 5))

/-- Message type 6: ignored (R293). -/
def execDhcpNak (s : State) : Host.Outcome State Fault Refusal := runMain s (dhcpReceiveAs (some 6))

/-- Message type 7: ignored (R293). -/
def execDhcpRelease (s : State) : Host.Outcome State Fault Refusal :=
  runMain s (dhcpReceiveAs (some 7))

/-- Message type 8: ignored (R293). -/
def execDhcpInform (s : State) : Host.Outcome State Fault Refusal :=
  runMain s (dhcpReceiveAs (some 8))

/-- A message with no type (R286 row 3, R292, R304). -/
def execDhcpBootpReply (s : State) : Host.Outcome State Fault Refusal :=
  runMain s (dhcpReceiveAs none)

/-- Option 0 (R301). -/
def execOptPad (s : State) : Host.Outcome State Fault Refusal :=
  runMain s fun s => done (optUnit 0 s)

/-- Option 12: skipped by its length (R302). -/
def execOptHostname (s : State) : Host.Outcome State Fault Refusal :=
  runMain s fun s => done (optUnit 12 s)

/-- Option 28 (R305). -/
def execOptBroadcastAddress (s : State) : Host.Outcome State Fault Refusal :=
  runMain s fun s => done (optUnit 28 s)

/-- Option 50: skipped by its length (R302). The one the engine sends stands in `requestOptions`
(R283). -/
def execOptRequestedIp (s : State) : Host.Outcome State Fault Refusal :=
  runMain s fun s => done (optUnit 50 s)

/-- Option 51: skipped by its length (R302). -/
def execOptLeaseTime (s : State) : Host.Outcome State Fault Refusal :=
  runMain s fun s => done (optUnit 51 s)

/-- Option 53 (R304). -/
def execOptMessageType (s : State) : Host.Outcome State Fault Refusal :=
  runMain s fun s => done (optUnit 53 s)

/-- Option 54: skipped by its length (R302). The one the engine sends stands in `requestOptions`
(R283). -/
def execOptServerIdentifier (s : State) : Host.Outcome State Fault Refusal :=
  runMain s fun s => done (optUnit 54 s)

/-- Option 55: skipped by its length (R302). -/
def execOptParameterRequestList (s : State) : Host.Outcome State Fault Refusal :=
  runMain s fun s => done (optUnit 55 s)

/-- Option 57: skipped by its length (R302). -/
def execOptMaxMessageSize (s : State) : Host.Outcome State Fault Refusal :=
  runMain s fun s => done (optUnit 57 s)

/-- Option 61: skipped by its length (R302). -/
def execOptClientIdentifier (s : State) : Host.Outcome State Fault Refusal :=
  runMain s fun s => done (optUnit 61 s)

/-- Option 255 (R301). -/
def execOptEnd (s : State) : Host.Outcome State Fault Refusal :=
  runMain s fun s => done (optUnit 255 s)

/-- Any other option: skipped by its length (R302). -/
def execOptUnknown (code : Byte) (s : State) : Host.Outcome State Fault Refusal :=
  runMain s fun s => done (optUnit code s)

end Sys2Proof.Machine
end

