-- ==== Sys2Proof/Machine/Tftp.lean ====
section
/-! DEFINITION. The File Transfer Client (46_tftp.md R330 to R353) and the TFTP wire codes (R104). -/

namespace Sys2Proof.Machine

/-! ### Messages the engine sends -/

/-- A read request (R331). -/
def rrqMessage (p : Params) (filename : List Byte) : List Byte :=
  bytes16 1 ++ filename ++ [0] ++ p.tftpMode ++ [0]

/-- An acknowledgment (R340). -/
def ackMessage (block : Word16) : List Byte := bytes16 4 ++ bytes16 block

/-! ### Starting a transfer -/

/-- What R330 requires of a read request. -/
def readRequestAllowed (s : State) (filename : List Byte) (base limit : Nat) (hook verify : Bool) :
    Bool :=
  s.run = .running && s.dhcp.phase = .bound && filename ≠ [] && !filename.contains 0 &&
    decide (base ≤ limit) && (!verify || (s.par.signature.isSome && !hook))

/-- A new session, overwriting the old one (R330, R333). The pinned port keeps its bits and is not
read until it is latched again. -/
def freshSession (old : Tftp) (port : Word16) (base limit : Nat) (hook verify : Bool) : Tftp :=
  { old with active := true, expected := 1, latched := false, clientPort := port, destBase := base,
             destLimit := limit, cursor := base, total := 0, hook := hook, verify := verify }

/-- `TFTP.READ_REQUEST`: an atomic transition of its own, with its tick sample (R330, R402, R170). A file
name whose UDP length does not fit 16 bits is `IP.SEND`'s LENGTH_MISMATCH, which R252 tests before the
slot (log 42). -/
def tftpReadRequest (filename : List Byte) (base limit : Nat) (hook verify : Bool) (s : State) :
    Res Unit :=
  if readRequestAllowed s filename base limit hook verify then
    let port := portDraw s
    let s1 := usePort (sampleTicks s)
    let s2 := s1.setTftp (freshSession s1.tftp port base limit hook verify)
    let m := rrqMessage s.par filename
    ipSend .prio m (ipCreate s2.ip.serverMac s2.ip.server port Config.tftpServerPort
      (lengthField (8 + m.length)) s2)
  else .fault .hostProtocol

/-! ### The end of a transfer -/

/-- The signature check, then the transfer of control or the fatal mismatch (R348). With no signature
configured a read request cannot have set `TFTP_VERIFY`: a state where it is set breaks the host's duty
of R330. -/
def checkSignature {α : Type} (s : State) : Res α :=
  match s.par.signature with
  | some (off, sig) =>
    if off + sig.length ≤ s.tftp.total.toNat ∧
        Memory.readBytes s.dest (s.tftp.destBase + off) sig.length = sig then transferControl s
    else raiseFatal .signatureMismatch s
  | none => .fault .hostProtocol

/-- `TFTP.COMPLETE` (R347). -/
def tftpComplete (s : State) : Res Unit :=
  let a := ethAcknowledge s
  let s1 := a.setTftp { a.tftp with active := false }
  if s1.tftp.verify then checkSignature s1
  else
    let s2 := s1.emit (.completionHook s1.tftp.total)
    let s3 := useTransfer s2
    if transferDraw s2 then transferControl s3 else done s3

/-! ### Receiving -/

/-- The total after `n` more bytes: 32 bits, a free value past them (R344, R345; log 25). -/
def addTotal (t : Word32) (n : Nat) : Word32 :=
  if t.toNat + n < 4294967296 then BitVec.ofNat 32 (t.toNat + n) else Config.freeTotal t n

/-- Flat delivery: append to the destination, inside its bounds (R344, R72; log 30). -/
def deliverFlat (bs : List Byte) (s : State) : Res Unit :=
  if s.tftp.cursor + bs.length ≤ s.tftp.destLimit ∧ (bs = [] ∨ s.tftp.destBase ≤ s.tftp.cursor) then
    let s1 := s.setDest (Memory.write s.dest s.tftp.cursor bs)
    done (s1.setTftp { s1.tftp with cursor := s1.tftp.cursor + bs.length,
                                    total := addTotal s1.tftp.total bs.length })
  else .fault .destOverrun

/-- Hooked delivery: the hook gets the bytes; nothing is written to DEST (R345). -/
def deliverHook (block : Word16) (bs : List Byte) (s : State) : State :=
  let s1 := s.emit (.blockHook block bs)
  s1.setTftp { s1.tftp with total := addTotal s1.tftp.total bs.length }

/-- Delivery of a new block (R344, R345). -/
def deliver (block : Word16) (bs : List Byte) (s : State) : Res Unit :=
  if s.tftp.hook then done (deliverHook block bs s) else deliverFlat bs s

/-- The first new DATA of a session pins the server's port (R341). -/
def latchPort (sport : Word16) (s : State) : State :=
  if s.tftp.latched then s else s.setTftp { s.tftp with latched := true, serverPort := sport }

/-- The acknowledgment of a block, to the sender, in the priority slot (R340). Its callers hold the
message's UDP data inside the frame, and the ports with it, so the reply is not dropped
(`udpData_portsInside`). -/
def sendAck (block : Word16) (s : State) : Res Unit :=
  (ipReply 12 s).andThen (ipSend .prio (ackMessage block))

/-- The expected block becomes the next, modulo `2^16` (R343, R349). -/
def expectNext (s : State) : State := s.setTftp { s.tftp with expected := s.tftp.expected + 1 }

/-- A new block: latch, acknowledge, deliver, expect the next, and complete on a short one (R335,
R346). -/
def newBlock (sport block : Word16) (bs : List Byte) (s : State) : Res Unit :=
  (sendAck block (latchPort sport s)).andThen fun s =>
    (deliver block bs s).andThen fun s =>
      if bs.length < Config.maxBlock then tftpComplete (expectNext s) else done (expectNext s)

/-- A DATA message of the UDP data at `p`, length `len` (R335, R338, R339, R342). -/
def tftpDataAt (p len : Nat) (s : State) : Res Unit :=
  if len < 4 ∨ 4 + Config.maxBlock < len then done s
  else
    let sport := udpSourcePort s
    let block := Memory.be16 s.buf (p + 2)
    if s.tftp.latched ∧ sport ≠ s.tftp.serverPort then raiseFatal .tftpBadPort s
    else if block = s.tftp.expected then
      newBlock sport block (Memory.readBytes s.buf (p + 4) (len - 4)) s
    else if block = s.tftp.expected - 1 then sendAck block s
    else raiseFatal .tftpBadBlock s

/-- What a message of an opcode does, its checks in the order of R335 (R336, R337). -/
def tftpByOpcode (op : Word16) (p len : Nat) (s : State) : Res Unit :=
  if op = 5 then raiseFatal .tftpError s
  else if op ≠ 3 then raiseFatal .tftpBadOpcode s
  else tftpDataAt p len s

/-- `TFTP.RECEIVE` of the live frame with the opcode read by a function of the frame: a message too
short for an opcode is dropped (R335). -/
def tftpReceiveBy (opcodeAt : Nat → Word16) (s : State) : Res Unit :=
  match udpData s with
  | none => done s
  | some (p, len) => if len < 2 then done s else tftpByOpcode (opcodeAt p) p len s

/-- `TFTP.RECEIVE`: the opcode is the message's own (R335). -/
def tftpReceive (s : State) : Res Unit := tftpReceiveBy (fun p => Memory.be16 s.buf p) s

/-- The live message received as one of a given opcode (log 14). -/
def tftpReceiveAs (op : Word16) (s : State) : Res Unit := tftpReceiveBy (fun _ => op) s

/-! ### Meanings -/

/-- 0x60 (R330). Outside RUNNING it is the model fault HOST_PROTOCOL (R330, R402). -/
def execTftpReadRequest (filename : List Byte) (base limit : Nat) (hook verify : Bool) (s : State) :
    Host.Outcome State Fault Refusal :=
  (tftpReadRequest filename base limit hook verify s).outcome

/-- 0x61 (R335). -/
def execTftpReceive (s : State) : Host.Outcome State Fault Refusal := runMain s tftpReceive

/-- 0x62 (R347). -/
def execTftpComplete (s : State) : Host.Outcome State Fault Refusal := runMain s tftpComplete

/-- Opcode 1, received: fatal (R337). The one the engine sends is `rrqMessage` (R331). -/
def execTftpRrq (s : State) : Host.Outcome State Fault Refusal := runMain s (tftpReceiveAs 1)

/-- Opcode 3 (R335). -/
def execTftpData (s : State) : Host.Outcome State Fault Refusal := runMain s (tftpReceiveAs 3)

/-- Opcode 4, received: fatal (R337). The one the engine sends is `ackMessage` (R340). -/
def execTftpAck (s : State) : Host.Outcome State Fault Refusal := runMain s (tftpReceiveAs 4)

/-- Opcode 5: fatal (R336). -/
def execTftpError (s : State) : Host.Outcome State Fault Refusal := runMain s (tftpReceiveAs 5)

/-- Any other opcode: fatal (R337). -/
def execTftpOther (op : Word16) (s : State) : Host.Outcome State Fault Refusal :=
  runMain s (tftpReceiveAs op)

end Sys2Proof.Machine
end

