-- ==== Sys2Proof/Machine/IpReceive.lean ====
section
/-! DEFINITION. IP and UDP validation and demultiplexing (44_ip_udp.md R240 to R245) and their wire
codes (R96, R99). -/

namespace Sys2Proof.Machine

/-- The handler of a destination port: the transfer's while one is active, else the DHCP client's,
else none (R245). -/
def demuxBy (dport : Word16) (s : State) : Res Unit :=
  if s.tftp.active ∧ dport = s.tftp.clientPort then tftpReceive s
  else if dport = Config.dhcpClientPort then dhcpReceive s
  else done s

/-- `UDP.DEMUX` (R245). A frame with no room for the port is dropped (R71). -/
def udpDemux (s : State) : Res Unit :=
  if portsInside s then demuxBy (udpDestPort s) s else done s

/-- The live segment demultiplexed as one to a given port (log 14). -/
def udpDemuxAs (dport : Word16) (s : State) : Res Unit :=
  if portsInside s then demuxBy dport s else done s

/-- Once configured, only the host, its broadcast and the limited broadcast are accepted; before, every
destination is (R240). -/
def destinationAccepted (s : State) : Bool :=
  decide (s.ip.host = 0) || decide (ipDestination s = s.ip.host) ||
    decide (ipDestination s = s.ip.bcast) || decide (ipDestination s = Config.broadcastIp)

/-- The header checks of R240 before the checksum: room, IHL, total length, protocol, destination. -/
def ipHeaderAccepted (proto : Byte) (s : State) : Bool :=
  frameHas s 34 && decide (5 ≤ ipIhl s) && decide (ipHeaderLen s + 8 ≤ ipTotalLen s) &&
    frameHas s (14 + ipTotalLen s) && decide (proto = 17) && destinationAccepted s

/-- The UDP length lies in `[8, tl - hl]` (R240). -/
def udpLenAccepted (s : State) : Bool :=
  decide (8 ≤ udpLen s) && decide (udpLen s ≤ ipTotalLen s - ipHeaderLen s)

/-- The UDP checksum check: skipped where the field is zero, over the pseudo-header and the segment
where it is not (R240). -/
def udpChecksumCheck (s : State) : Bool × State :=
  if udpChecksum s = 0 then (true, s)
  else ckValidate (pseudoBytes (ipSource s) (ipDestination s) (udpLen s))
    (Memory.readBytes s.buf (udpOff s) (udpLen s)) s

/-- What the frame hands on once it has passed (R240, R242). -/
def passView (s : State) : State :=
  s.setIpView (some { off := udpOff s + 8, len := udpLen s - 8, src := ipSource s })

/-- `IP.RECEIVE` of the live frame for a given protocol value: every failed check drops the frame
(R240). -/
def ipReceiveBy (proto : Byte) (s : State) : Res Unit :=
  if ipHeaderAccepted proto s then
    let h := ckValidate [] (Memory.readBytes s.buf 14 (ipHeaderLen s)) s
    if h.1 && udpLenAccepted h.2 then
      let u := udpChecksumCheck h.2
      if u.1 then udpDemux (passView u.2) else done u.2
    else done h.2
  else done s

/-- `IP.RECEIVE` (R240). -/
def ipReceive (s : State) : Res Unit := ipReceiveBy (ipProtocol s) s

/-! ### Meanings -/

/-- 0x40 (R240). -/
def execIpReceive (s : State) : Host.Outcome State Fault Refusal := runMain s ipReceive

/-- 0x41 (R245). -/
def execUdpDemux (s : State) : Host.Outcome State Fault Refusal := runMain s udpDemux

/-- IP protocol 17 (R96, R240). -/
def execIpv4Udp (s : State) : Host.Outcome State Fault Refusal := runMain s (ipReceiveBy 17)

/-- Destination port 68 (R245). -/
def execUdpDhcpClient (s : State) : Host.Outcome State Fault Refusal := runMain s (udpDemuxAs 68)

/-- A destination port other than the well-known three: the transfer's where it is `TFTP_CLIENT_PORT`
while a transfer is active, else dropped (R245). -/
def execUdpTftpClient (port : Word16) (s : State) : Host.Outcome State Fault Refusal :=
  runMain s (udpDemuxAs port)

/-- Destination port 67, received: dropped, unless it was drawn as the client port (R245). The engine
sends to it in `dhcpBroadcast` (R280). -/
def execUdpDhcpServer (s : State) : Host.Outcome State Fault Refusal := runMain s (udpDemuxAs 67)

/-- Destination port 69, received: dropped, unless it was drawn as the client port (R245). The engine
sends to it in `tftpReadRequest` (R330). -/
def execUdpTftpServer (s : State) : Host.Outcome State Fault Refusal := runMain s (udpDemuxAs 69)

end Sys2Proof.Machine
end

