-- ==== Sys2Proof/Machine/Receive.lean ====
section
/-! DEFINITION. The receive side of the Frame Dispatcher and its main cycle (42_frame_dispatcher.md
R170 to R177) and the ethertypes (R92). -/

namespace Sys2Proof.Machine

/-- No frame is live, and nothing is kept of the last one: neither its view nor an option iterator over
it (R25, R26, R171). -/
def endFrame (s : State) : State := ((s.setLive false).setIpView none).setOpt optIdle

/-- `ETH.POLL`: whether the packet count is above zero (R172). -/
def ethPoll (s : State) : Bool := decide (0 < (packetCount s).toNat)

/-- Link recovery: an advertised pointer outside the ring re-initialises the link; the frame is not
processed (R177). -/
def linkRecover (s : State) : Res Unit :=
  (linkReinit s).andThen fun s => done (endFrame (s.setRxRdptr s.par.rxStart))

/-- The frame is copied to the shared buffer and becomes live; nothing is kept of an earlier one
(R174, R26). -/
def takeFrame (bs : List Byte) (s : State) : State :=
  ((((s.setBuf (Memory.write s.buf 0 bs)).setLiveLen (BitVec.ofNat 16 bs.length)).setLive
    true).setIpView none).setOpt optIdle

/-- `ETH.RECEIVE`: the frame at the read cursor; absent where link recovery ended the cycle (R174,
R177). -/
def ethReceive (s : State) : Res (Option RxHeader) :=
  (linkReadFrame s).bind fun f s =>
    if f.next < s.par.rxStart ∨ s.par.rxEnd < f.next then
      (linkRecover s).bind fun _ s => .ok none s
    else if frameLen f < 14 ∨ s.par.rxBufSize < frameLen f then
      .ok (some { accepted := false, next := f.next }) s
    else
      (linkStreamFrame f s).bind fun bs s =>
        .ok (some { accepted := true, next := f.next }) (takeFrame bs s)

/-- The live frame dispatched by an ethertype: self-echo filtering, then the handler (R175). A frame
with no room for the Ethernet header is dropped (R71). -/
def dispatchBy (et : Word16) (s : State) : Res Unit :=
  if !frameHas s 14 then done s
  else if ethSource s = s.par.localMac then done s
  else if et = 0x0806 then arpHandle s
  else if et = 0x0800 then ipReceive s
  else done s

/-- `ETH.DISPATCH` (R175). -/
def ethDispatch (s : State) : Res Unit := dispatchBy (ethType s) s

/-- `ETH.ADVANCE next` (R176). The cursor takes the operand as given, one outside controller memory too
(R12; log 38). -/
def ethAdvance (next : Nat) (s : State) : Res Unit :=
  (linkAdvance s).andThen fun s => done (s.setRxRdptr next)

/-- The rest of a cycle, once `ETH.RECEIVE` has returned a header (R171). -/
def handleFrame (h : RxHeader) (s : State) : Res Unit :=
  (if h.accepted then ethDispatch s else done s).andThen fun s =>
    (ethAdvance h.next s).andThen fun s => done (endFrame s)

/-- `ETH.CYCLE`: one iteration of the dispatch loop (R171). The retransmission check runs only where no
frame is available (R433). -/
def ethCycle (s : State) : Res Unit :=
  let s1 := sampleTicks s
  if ethPoll s1 then
    (ethReceive s1).bind fun h s =>
      match h with
      | some h => handleFrame h s
      | none => done s
  else ethCheckRetransmit s1.ticks s1

/-! ### Meanings -/

/-- 0x20 (R171). -/
def execEthCycle (s : State) : Host.Outcome State Fault Refusal := runMain s ethCycle

/-- 0x21 (R172). -/
def execEthPoll (s : State) : Host.Outcome State Fault Refusal :=
  runMain s fun s => done (s.setResult (.flag (ethPoll s)))

/-- 0x22 (R174). -/
def execEthReceive (s : State) : Host.Outcome State Fault Refusal :=
  runMain s fun s => (ethReceive s).bind fun h s =>
    done (s.setResult (match h with | some h => .header h | none => .recovered))

/-- 0x23 (R175). -/
def execEthDispatch (s : State) : Host.Outcome State Fault Refusal := runMain s ethDispatch

/-- 0x24 (R176). -/
def execEthAdvance (next : Nat) (s : State) : Host.Outcome State Fault Refusal :=
  runMain s (ethAdvance next)

/-- Ethertype 0x0806 (R92, R175). -/
def execEthArp (s : State) : Host.Outcome State Fault Refusal := runMain s (dispatchBy 0x0806)

/-- Ethertype 0x0800 (R92, R175). -/
def execEthIpv4 (s : State) : Host.Outcome State Fault Refusal := runMain s (dispatchBy 0x0800)

/-- Any other ethertype: dropped (R92, R175). -/
def execEthUnknown (et : Word16) (s : State) : Host.Outcome State Fault Refusal :=
  runMain s (dispatchBy et)

end Sys2Proof.Machine
end

