-- ==== Sys2Proof/Machine/System.lean ====
section
/-! DEFINITION. The timer interrupt, the fatal condition and the boot entry as operations of their own
(60_exceptions.md R384, R390; 70_reset_and_hazards.md R421), and the constraints on the parameters
(00_scope.md R11). -/

namespace Sys2Proof.Machine

/-- Two regions, each a start and a length, share no byte. -/
def apart (a la b lb : Nat) : Bool := decide (a + la ≤ b) || decide (b + lb ≤ a)

/-- The least `TX_SLOT_SIZE` that the frames of R64 need, read requests left out: their length depends
on the file name, and one too long faults when it is sent. -/
def slotBound (p : Params) : Nat :=
  max 46 (42 + max p.dhcpPadTo (240 + 3 + 6 + 6 + p.dhcpExtraOptions.length + 1))

/-- The constraints of R11, R62 and R64 (D4, D12, D14, D50). One of them is the model's choice and no rule's:
`rxStart ≤ rxEnd`, that the inclusive bounds of the receive ring are in order (log 44). -/
def paramsValid (p : Params) : Bool :=
  p.localMac ≠ 0 && p.localMac ≠ Config.broadcastMac &&
    decide (1 ≤ p.tMin) && decide (p.tMin ≤ p.tMax) &&
    decide (p.tMax + p.jitterMax < 2 ^ p.tickBits) && decide (598 ≤ p.rxBufSize) &&
    decide (p.rxStart ≤ p.rxEnd) && decide (p.rxEnd < p.ctrlMemSize) &&
    decide (p.txRegStart + p.txSlotSize ≤ p.ctrlMemSize) &&
    decide (p.txPrioStart + p.txSlotSize ≤ p.ctrlMemSize) &&
    apart p.txRegStart p.txSlotSize p.txPrioStart p.txSlotSize &&
    apart p.rxStart (p.rxEnd + 1 - p.rxStart) p.txRegStart p.txSlotSize &&
    apart p.rxStart (p.rxEnd + 1 - p.rxStart) p.txPrioStart p.txSlotSize &&
    (decide (p.prioNone < p.txPrioStart) || decide (p.txPrioStart + p.txSlotSize < p.prioNone)) &&
    decide (slotBound p ≤ p.txSlotSize)

/-- The reset state of R420, the fields it leaves unspecified aside. -/
def isReset (s : State) : Bool :=
  s.run = .running && s.fatalReason = 0 && !s.ck.init && !s.live &&
    s.ip = { host := 0, bcast := 0, server := 0, serverMac := 0 } &&
    s.rtx = { prioEnd := s.par.prioNone, timeout := s.par.tMin, wait := s.par.tMin, start := 0 } &&
    s.ticks = 0 && s.irqMask && s.rxRdptr = s.par.rxStart &&
    s.dhcp = { phase := .init, server := 0, offered := 0 } &&
    !s.tftp.active && !s.tftp.latched && !s.tftp.hook && !s.tftp.verify && s.tftp.total = 0 &&
    s.tftp.clientPort = 0

/-- `ENGINE.BOOT`: from the reset state, with parameters within their constraints (R403, R422; log 29),
bring up the link, enable the timer interrupt, and boot the DHCP client (R421). No other operation
enables the interrupt (R34, R386). -/
def engineBoot (s : State) : Res Unit :=
  if isReset s && paramsValid s.par then
    (linkInit s).andThen fun s =>
      dhcpBoot (sampleTicks ((s.setRxRdptr s.par.rxStart).setIrqMask false))
  else .fault .hostProtocol

/-! ### Meanings -/

/-- 0x70: the TICK agent's step; it runs in every control state (R384, R423). -/
def execIrqTick (s : State) : Host.Outcome State Fault Refusal := .next (takeTick s)

/-- 0x71 (R390). A code that R391 does not list is never raised: it is rejected with no state change
(R391, U20; log 28). -/
def execFatal (code : Byte) (s : State) : Host.Outcome State Fault Refusal :=
  runMain s fun s =>
    match fatalCodeOf code with
    | some c => (raiseFatal c s : Res Unit)
    | none => done s

/-- 0x72 (R421). -/
def execEngineBoot (s : State) : Host.Outcome State Fault Refusal := runMain s engineBoot

end Sys2Proof.Machine
end

