-- ==== Sys2Proof/Machine/Dispatch.lean ====
section
/-! DEFINITION. exec: one arm per constructor of Instr, each one direct call of its meaning. -/

namespace Sys2Proof.Machine

def exec (i : Instr) (s : State) : Host.Outcome State Fault Refusal :=
  match i with
  | .ckReset => Sys2Proof.Machine.execCkReset s
  | .ckAccumulate space off n => Sys2Proof.Machine.execCkAccumulate space off n s
  | .ckAccumulateStream src dst off n => Sys2Proof.Machine.execCkAccumulateStream src dst off n s
  | .ckFold => Sys2Proof.Machine.execCkFold s
  | .ckValidate space off n pseudo => Sys2Proof.Machine.execCkValidate space off n pseudo s
  | .ckInstall space off n field => Sys2Proof.Machine.execCkInstall space off n field s
  | .ethCycle => Sys2Proof.Machine.execEthCycle s
  | .ethPoll => Sys2Proof.Machine.execEthPoll s
  | .ethReceive => Sys2Proof.Machine.execEthReceive s
  | .ethDispatch => Sys2Proof.Machine.execEthDispatch s
  | .ethAdvance next => Sys2Proof.Machine.execEthAdvance next s
  | .ethTransmit slot len => Sys2Proof.Machine.execEthTransmit slot len s
  | .ethCheckRetransmit now => Sys2Proof.Machine.execEthCheckRetransmit now s
  | .ethAcknowledge => Sys2Proof.Machine.execEthAcknowledge s
  | .arpHandleRequest => Sys2Proof.Machine.execArpHandleRequest s
  | .ipReceive => Sys2Proof.Machine.execIpReceive s
  | .udpDemux => Sys2Proof.Machine.execUdpDemux s
  | .ipCreate destMac destIp srcPort dstPort udpLen => Sys2Proof.Machine.execIpCreate destMac destIp srcPort dstPort udpLen s
  | .ipReply udpLen => Sys2Proof.Machine.execIpReply udpLen s
  | .ipSend slot payload => Sys2Proof.Machine.execIpSend slot payload s
  | .dhcpBoot => Sys2Proof.Machine.execDhcpBoot s
  | .dhcpReceive => Sys2Proof.Machine.execDhcpReceive s
  | .dhcpParseOptions => Sys2Proof.Machine.execDhcpParseOptions s
  | .tftpReadRequest filename destBase destLimit hook verify => Sys2Proof.Machine.execTftpReadRequest filename destBase destLimit hook verify s
  | .tftpReceive => Sys2Proof.Machine.execTftpReceive s
  | .tftpComplete => Sys2Proof.Machine.execTftpComplete s
  | .irqTick => Sys2Proof.Machine.execIrqTick s
  | .fatal code => Sys2Proof.Machine.execFatal code s
  | .engineBoot => Sys2Proof.Machine.execEngineBoot s
  | .ethArp => Sys2Proof.Machine.execEthArp s
  | .ethIpv4 => Sys2Proof.Machine.execEthIpv4 s
  | .ethUnknown ethertype => Sys2Proof.Machine.execEthUnknown ethertype s
  | .arpRequest => Sys2Proof.Machine.execArpRequest s
  | .arpReply => Sys2Proof.Machine.execArpReply s
  | .ipv4Udp => Sys2Proof.Machine.execIpv4Udp s
  | .udpDhcpClient => Sys2Proof.Machine.execUdpDhcpClient s
  | .udpTftpClient port => Sys2Proof.Machine.execUdpTftpClient port s
  | .udpDhcpServer => Sys2Proof.Machine.execUdpDhcpServer s
  | .udpTftpServer => Sys2Proof.Machine.execUdpTftpServer s
  | .dhcpDiscover => Sys2Proof.Machine.execDhcpDiscover s
  | .dhcpOffer => Sys2Proof.Machine.execDhcpOffer s
  | .dhcpRequest => Sys2Proof.Machine.execDhcpRequest s
  | .dhcpDecline => Sys2Proof.Machine.execDhcpDecline s
  | .dhcpAck => Sys2Proof.Machine.execDhcpAck s
  | .dhcpNak => Sys2Proof.Machine.execDhcpNak s
  | .dhcpRelease => Sys2Proof.Machine.execDhcpRelease s
  | .dhcpInform => Sys2Proof.Machine.execDhcpInform s
  | .dhcpBootpReply => Sys2Proof.Machine.execDhcpBootpReply s
  | .optPad => Sys2Proof.Machine.execOptPad s
  | .optHostname => Sys2Proof.Machine.execOptHostname s
  | .optBroadcastAddress => Sys2Proof.Machine.execOptBroadcastAddress s
  | .optRequestedIp => Sys2Proof.Machine.execOptRequestedIp s
  | .optLeaseTime => Sys2Proof.Machine.execOptLeaseTime s
  | .optMessageType => Sys2Proof.Machine.execOptMessageType s
  | .optServerIdentifier => Sys2Proof.Machine.execOptServerIdentifier s
  | .optParameterRequestList => Sys2Proof.Machine.execOptParameterRequestList s
  | .optMaxMessageSize => Sys2Proof.Machine.execOptMaxMessageSize s
  | .optClientIdentifier => Sys2Proof.Machine.execOptClientIdentifier s
  | .optEnd => Sys2Proof.Machine.execOptEnd s
  | .optUnknown code => Sys2Proof.Machine.execOptUnknown code s
  | .tftpRrq => Sys2Proof.Machine.execTftpRrq s
  | .tftpData => Sys2Proof.Machine.execTftpData s
  | .tftpAck => Sys2Proof.Machine.execTftpAck s
  | .tftpError => Sys2Proof.Machine.execTftpError s
  | .tftpOther opcode => Sys2Proof.Machine.execTftpOther opcode s

end Sys2Proof.Machine
end

