-- ==== Sys2Proof/Machine/Fetch.lean ====
section
/-! DEFINITION. What moves next (log 2): the head of the script, or, where the script is empty, MAIN on
its own. -/

namespace Sys2Proof.Machine

/-- What a step does. -/
inductive Fetched where
  | unit (i : Instr) (s : State)
  | arrival (f : RxFrame) (s : State)
  | dropped (s : State)
  | undecodable (why : DecodeError)
deriving DecidableEq, Repr

/-- MAIN's own next transition: the boot entry until it has enabled the timer interrupt, then the main
cycle (R421, R171). -/
def ownTransition (s : State) : Instr := if s.irqMask then .engineBoot else .ethCycle

/-- The end of a unit that is dropped: a transition of MAIN with no effect (R16, R110). -/
def dropUnit (s : State) : Host.Outcome State Fault Refusal := runMain s done

/-- The head of the script, taken off it and decoded. A wire code with no row of the table is dropped
(R110: an ARP operation other than 1 and 2, an IP protocol other than 17); an operation code that
does not exist is refused. -/
def fetch (s : State) : Fetched :=
  match s.script with
  | [] => .unit (ownTransition s) s
  | .arrival f :: rest => .arrival f (s.setScript rest)
  | .coded w :: rest =>
    match decode w with
    | .ok i => .unit i (s.setScript rest)
    | .error (.noRow _ _) => .dropped (s.setScript rest)
    | .error why => .undecodable why

end Sys2Proof.Machine
end

