-- ==== Sys2Proof/Machine/Step.lean ====
section
/-! DEFINITION. One step of the machine, and where a table row's word is put to be fetched next. -/

namespace Sys2Proof.Machine

/-- One step: the unit at the head of the script or MAIN's own transition is run, or a frame arrives
(R7, R8; log 2). -/
def step (s : State) : Host.Outcome State Fault Refusal :=
  match fetch s with
  | .unit i s' => exec i s'
  | .arrival f s' => .next (linkArrival f s')
  | .dropped s' => dropUnit s'
  | .undecodable why => .refused (.undecodable why)

/-- The word of a table row, put at the head of the script, where the next step fetches it (log 2). -/
def State.withFetchWord (s : State) (nbits w : Nat) : State :=
  s.setScript (.coded (tableWord nbits w) :: s.script)

end Sys2Proof.Machine
end

