-- ==== Sys2Proof/Safety.lean ====
section
/-! DEFINITION. The terms in which claims are stated: link waits that complete, the invariant of the
machine, and the spec's laws and layouts written out apart from the meanings (41_checksum.md R146,
44_ip_udp.md R250, 45_dhcp.md R300). -/

namespace Sys2Proof.Machine

/-! ### Link waits (R401) -/

/-- The next `n` bounded waits complete within the cap. -/
abbrev waitsComplete (s : State) (n : Nat) : Prop :=
  ∀ k < n, s.draws.polls.getD (s.draws.pollPos + k) (Config.freePolls (s.draws.pollPos + k)) ≤
    s.par.pollCap

/-- The draws after `n` bounded waits. -/
def afterWaits (s : State) (n : Nat) : Draws := { s.draws with pollPos := s.draws.pollPos + n }

/-! ### The invariant -/

/-- Every listed address of a space lies below its size (R60). -/
abbrev listedBelow (m : Memory) (size : Nat) : Prop := ∀ c ∈ m, c.1 < size

/-- The spaces are in canonical form (log 8). -/
abbrev spacesCanonical (s : State) : Prop :=
  Memory.wf s.buf = true ∧ Memory.wf s.tpl = true ∧ Memory.wf s.ctrl = true ∧ Memory.wf s.dest = true

/-- The spaces of fixed size hold nothing outside them (R24, R27, R60). -/
abbrev spacesInside (s : State) : Prop :=
  listedBelow s.buf s.par.rxBufSize ∧ listedBelow s.tpl Config.tplSize ∧
    listedBelow s.ctrl s.par.ctrlMemSize

/-- Configured if and only if BOUND (R29). -/
abbrev configuredIffBound (s : State) : Prop := s.ip.host ≠ 0 ↔ s.dhcp.phase = .bound

/-- The timeout stays between its bounds, and the wait is the timeout and at most the largest jitter
(R32, R33, R180). -/
abbrev timerInRange (s : State) : Prop :=
  s.par.tMin ≤ s.rtx.timeout ∧ s.rtx.timeout ≤ s.par.tMax ∧ s.rtx.timeout ≤ s.rtx.wait ∧
    s.rtx.wait ≤ s.rtx.timeout + s.par.jitterMax

/-- The tick counter and the start of a wait fit in `TICK_BITS` bits (R33, R34). -/
abbrev ticksFit (s : State) : Prop :=
  s.ticks < 2 ^ s.par.tickBits ∧ s.rtx.start < 2 ^ s.par.tickBits

/-- The outstanding frame ends inside the priority slot, or there is none (R31, R62). -/
abbrev prioEndLegal (s : State) : Prop :=
  s.rtx.prioEnd = s.par.prioNone ∨
    (s.par.txPrioStart ≤ s.rtx.prioEnd ∧ s.rtx.prioEnd ≤ s.par.txPrioStart + s.par.txSlotSize)

/-- An active transfer has a configuration and a cursor inside its region, and no client port is 68
(R39, R330, R332, R344). -/
abbrev sessionLegal (s : State) : Prop :=
  s.tftp.clientPort ≠ 68 ∧
    (s.tftp.active = true → s.dhcp.phase = .bound ∧ s.tftp.clientPort ≠ 0 ∧
      s.tftp.destBase ≤ s.tftp.cursor ∧ s.tftp.cursor ≤ s.tftp.destLimit)

/-- A live frame has an Ethernet header and fits in the shared buffer (R25, R174). -/
abbrev liveFrameFits (s : State) : Prop :=
  s.live = true → 14 ≤ s.liveLen.toNat ∧ s.liveLen.toNat ≤ s.par.rxBufSize

/-- The fatal reason is a code of R391 once a fatal condition was entered, and 0 otherwise (R22). -/
abbrev reasonOnlyWhenFatal (s : State) : Prop :=
  (s.run ≠ .haltedFatal → s.fatalReason = 0) ∧
    (s.run = .haltedFatal → 1 ≤ s.fatalReason.toNat ∧ s.fatalReason.toNat ≤ 7)

/-- An option iterator in progress reads only inside the live frame (R25, R71). -/
abbrev iteratorInside (s : State) : Prop :=
  s.opt.status = .running → s.opt.stop ≤ s.liveLen.toNat

/-- A frame that passed `IP.RECEIVE` has room for its Ethernet, IP and UDP headers (R240, R71). -/
abbrev viewInside (s : State) : Prop := s.ipView.isSome = true → 42 ≤ s.liveLen.toNat

/-- The invariant of the machine: what holds at reset and is kept by every step. -/
abbrev Invariant (s : State) : Prop :=
  paramsValid s.par = true ∧ spacesCanonical s ∧ spacesInside s ∧ configuredIffBound s ∧
    timerInRange s ∧ ticksFit s ∧ prioEndLegal s ∧ sessionLegal s ∧ liveFrameFits s ∧
    reasonOnlyWhenFatal s ∧ iteratorInside s ∧ viewInside s ∧ s.ring.length ≤ 255

/-- The order of the DHCP states (R37). -/
def phaseRank : DhcpPhase → Nat
  | .init => 0
  | .awaitingOffer => 1
  | .requesting => 2
  | .bound => 3

/-! ### The checksum's laws -/

/-- The big-endian words of a byte string, an odd last byte the high byte of a zero-padded word
(R141). -/
def wordsOf : List Byte → List Nat
  | hi :: lo :: rest => (hi.toNat * 256 + lo.toNat) :: wordsOf rest
  | [hi] => [hi.toNat * 256]
  | [] => []

/-- The closed form of the fold of words with a given sum (R146). -/
def foldOfSum (total : Nat) : Nat := if total = 0 then 0 else (total - 1) % 0xffff + 1

/-- The fold of a byte string by the closed form (R146). -/
def foldOf (bs : List Byte) : Nat := foldOfSum (wordsOf bs).sum

/-- The loop of `CK.ACCUMULATE` as R141 writes it: the words by their index, then an odd last byte. -/
def accumulateLoop (byteAt : Nat → Byte) (n : Nat) (c : Ck) : Ck :=
  let whole := (List.range (n / 2)).foldl
    (fun c k => ckAdd c (word16 [byteAt (2 * k), byteAt (2 * k + 1)])) c
  if n % 2 = 1 then ckAdd whole (word16 [byteAt (n - 1), 0]) else whole

/-! ### Frames the engine sends -/

/-- The IP header of a datagram to send, with a given checksum field (R95, R250). -/
def ipHeaderBytes (src dst : Word32) (udpLen checksum : Word16) : List Byte :=
  [0x45, 0x00] ++ bytes16 (lengthField (20 + udpLen.toNat)) ++ [0, 0, 0, 0, 0x40, 0x11] ++
    bytes16 checksum ++ bytes32 src ++ bytes32 dst

/-- The 42 bytes of a header template (R250, R91, R95, R97), its checksum by the closed form. -/
def templateBytes (destMac localMac : Mac) (src dst : Word32) (srcPort dstPort udpLen : Word16) :
    List Byte :=
  bytes48 destMac ++ bytes48 localMac ++ [0x08, 0x00] ++
    ipHeaderBytes src dst udpLen
      (~~~ BitVec.ofNat 16 (foldOf (ipHeaderBytes src dst udpLen 0))) ++
    bytes16 srcPort ++ bytes16 dstPort ++ bytes16 udpLen ++ [0, 0]

/-- A DHCP message as a frame: broadcast, from port 68 to port 67 (R280, R290). -/
def dhcpFrame (s : State) (m : List Byte) : List Byte :=
  templateBytes 0xffffffffffff s.par.localMac s.ip.host 0xffffffff 68 67
    (BitVec.ofNat 16 (8 + m.length)) ++ m

/-- The acknowledgment of a block as a frame: to the sender of the live datagram (R340, R251). -/
def ackFrame (s : State) (block : Word16) : List Byte :=
  templateBytes (ethSource s) s.par.localMac s.ip.host (ipSource s) (udpDestPort s)
    (udpSourcePort s) 12 ++ ([0x00, 0x04] ++ bytes16 block)

/-- A payload of `n` bytes can be sent: the two link waits complete, the frame fits its slot, and its
UDP length fits 16 bits (R252, R401); the frame itself may be longer than 65535 bytes (log 45). -/
abbrev canSend (s : State) (n : Nat) : Prop :=
  waitsComplete s 2 ∧ 42 + n ≤ s.par.txSlotSize ∧ 8 + n < 65536

/-- `t` is `s` after a frame was built in the template and sent from the priority slot; nothing else
changed (R178, R250, R252). -/
def SentPriority (s t : State) (frame : List Byte) : Prop :=
  ∃ (template : Memory) (c : Ck),
    Memory.readBytes template 0 42 = frame.take 42 ∧
    (∀ a, 42 ≤ a → Memory.read template a = Memory.read s.tpl a) ∧
    c.init = true ∧
    t = { s with
      tpl := template
      ck := c
      ctrl := Memory.write s.ctrl s.par.txPrioStart frame
      rtx := { prioEnd := s.par.txPrioStart + frame.length, timeout := s.par.tMin,
               wait := s.par.tMin, start := s.ticks }
      draws := afterWaits s 2
      obs := s.obs ++ [.tx .prio frame false] }

/-! ### Frames the engine accepts -/

/-- R240's conditions on the live frame other than the protocol, checksums by the closed form. -/
abbrev ipFrameAccepted (s : State) : Prop :=
  34 ≤ s.liveLen.toNat ∧ 5 ≤ ipIhl s ∧ 4 * ipIhl s + 8 ≤ ipTotalLen s ∧
    14 + ipTotalLen s ≤ s.liveLen.toNat ∧
    (s.ip.host = 0 ∨ ipDestination s = s.ip.host ∨ ipDestination s = s.ip.bcast ∨
      ipDestination s = 0xffffffff) ∧
    foldOf (Memory.readBytes s.buf 14 (4 * ipIhl s)) = 0xffff ∧
    8 ≤ udpLen s ∧ udpLen s ≤ ipTotalLen s - 4 * ipIhl s ∧
    (udpChecksum s = 0 ∨
      foldOf (pseudoBytes (ipSource s) (ipDestination s) (udpLen s) ++
        Memory.readBytes s.buf (14 + 4 * ipIhl s) (udpLen s)) = 0xffff)

/-- The instructions that take the live frame as an IP datagram of protocol 17 (R175, R240, R96). -/
abbrev takesDatagram (s : State) (i : Instr) : Prop :=
  i = .ipv4Udp ∨ (ipProtocol s = 17 ∧ (i = .ipReceive ∨
    (ethSource s ≠ s.par.localMac ∧ (i = .ethIpv4 ∨ (i = .ethDispatch ∧ ethType s = 0x0800)))))

/-- The instructions that take the live frame as an ARP request (R175, R220, R94). -/
abbrev takesArpRequest (s : State) (i : Instr) : Prop :=
  i = .arpRequest ∨ (arpOperation s = 1 ∧ (i = .arpHandleRequest ∨
    (ethSource s ≠ s.par.localMac ∧ (i = .ethArp ∨ (i = .ethDispatch ∧ ethType s = 0x0806)))))

/-- The instruction takes the live datagram as one of any type that its options carry (R245, R285). -/
abbrev takesOwnType (s : State) (i : Instr) : Prop :=
  i = .dhcpReceive ∨ (s.tftp.clientPort ≠ 68 ∧
    (i = .udpDhcpClient ∨ (i = .udpDemux ∧ udpDestPort s = 68)))

/-- The instruction takes the live datagram as a DATA message (R245, R335, R104). -/
abbrev takesData (s : State) (p : Nat) (i : Instr) : Prop :=
  i = .tftpData ∨ (Memory.be16 s.buf p = 3 ∧ (i = .tftpReceive ∨ (s.tftp.active = true ∧
    (i = .udpTftpClient s.tftp.clientPort ∨
      (i = .udpDemux ∧ udpDestPort s = s.tftp.clientPort)))))

/-- A DATA message the engine may accept: its length, its source port against a pinned one, and the
live frame an acknowledgment needs (R335, R338, R342, R251). -/
abbrev dataAcceptable (s : State) (len : Nat) : Prop :=
  4 ≤ len ∧ len ≤ 516 ∧ (s.tftp.latched = true → udpSourcePort s = s.tftp.serverPort) ∧
    s.live = true ∧ s.ipView.isSome = true ∧ waitsComplete s 2 ∧ 46 ≤ s.par.txSlotSize

/-! ### Option lists (R101, R300) -/

/-- A well-formed item of an option list. -/
inductive OptItem where
  | pad
  | opt (code : Byte) (value : List Byte)
deriving DecidableEq, Repr

/-- The bytes of an item (R101). -/
def OptItem.bytes : OptItem → List Byte
  | .pad => [0]
  | .opt code value => code :: BitVec.ofNat 8 value.length :: value

/-- The items the parser accepts (R101, R304, R305). -/
def OptItem.legal : OptItem → Bool
  | .pad => true
  | .opt code value =>
    code ≠ 0 && code ≠ 255 && decide (value.length < 256) && (code ≠ 53 || value ≠ []) &&
      (code ≠ 28 || value.length = 4)

/-- The bytes of a list of items. -/
def itemBytes (items : List OptItem) : List Byte := items.flatMap OptItem.bytes

/-- The message type of a list: its last option 53 (R304). -/
def lastType (items : List OptItem) : Option Byte :=
  items.foldl (fun acc i =>
    match i with
    | .pad => acc
    | .opt code value => if code = 53 then value.head? else acc) none

/-- The broadcast address of a list: its last option 28 (R305). -/
def lastBroadcast (items : List OptItem) : Option Word32 :=
  items.foldl (fun acc i =>
    match i with
    | .pad => acc
    | .opt code value => if code = 28 then some (word32 value) else acc) none

/-- The bytes at the end of a list that make a message not well formed: a code with no length byte, a
value that is cut short, an empty message type, a broadcast address of another length (R303 to
R305). -/
def badTail : List Byte → Bool
  | [] => false
  | [c] => c ≠ 0 && c ≠ 255
  | c :: l :: value =>
    c ≠ 0 && c ≠ 255 &&
      (decide (value.length < l.toNat) || (c = 53 && l = 0) || (c = 28 && l ≠ 4))

end Sys2Proof.Machine
end

