-- ==== Sys2Proof/Certificates/Slice0/Obligations.lean ====
section
/-! DEFINITION. The statements for the provers. Next states are written out whole: a field that a
statement does not name is unchanged. -/

section Obligations

open Sys2Proof Sys2Proof.Machine

/-! ### Encoding and the step -/

/-- Decoding the encoding of a well-formed instruction gives it back, with every operand (the
operand layout is the model's, log 3). -/
def Obligations.DecodeInvertsEncode : Prop :=
  ∀ i : Instr, i.wellFormed = true → decode (encode i) = .ok i

/-- Words written from the encodings of R92 to R104 and R108 decode to the instructions they stand
for (operand layout: log 3). -/
def Obligations.SampleWordsDecode : Prop :=
  decode ⟨.op, [0x13]⟩ = .ok .ckFold ∧
  decode ⟨.op, [0x24, 0, 0, 0, 0x46]⟩ = .ok (.ethAdvance 0x46) ∧
  decode ⟨.op, [0x71, 0x07]⟩ = .ok (.fatal 7) ∧
  decode ⟨.eth, [0x08, 0x06]⟩ = .ok .ethArp ∧
  decode ⟨.eth, [0x86, 0xdd]⟩ = .ok (.ethUnknown 0x86dd) ∧
  decode ⟨.arp, [0x00, 0x02]⟩ = .ok .arpReply ∧
  decode ⟨.ipv4, [0x11]⟩ = .ok .ipv4Udp ∧
  decode ⟨.udp, [0x00, 0x44]⟩ = .ok .udpDhcpClient ∧
  decode ⟨.dhcpOpt, [0x35, 0x01, 0x05]⟩ = .ok .dhcpAck ∧
  decode ⟨.dhcpOpt, [0x1c, 0x04]⟩ = .ok .optBroadcastAddress ∧
  decode ⟨.tftp, [0x00, 0x03]⟩ = .ok .tftpData ∧
  decode ⟨.tftp, [0x00, 0x02]⟩ = .ok (.tftpOther 2)

/-- A step runs what it fetches: the decoded unit at the head of the script, a frame that arrives,
or, with an empty script, MAIN's own transition (R8; how a unit comes to run is the model's, log 2).
-/
def Obligations.StepRunsTheFetchedUnit : Prop :=
  (∀ (s : State) (w : CodeWord) (rest : List Event) (i : Instr),
    s.script = .coded w :: rest → decode w = .ok i → step s = exec i { s with script := rest }) ∧
  (∀ (s : State) (f : RxFrame) (rest : List Event),
    s.script = .arrival f :: rest → s.ring.length < 255 →
    step s = .next { s with
      script := rest
      ring := s.ring ++ [f]
      linkSteps := s.linkSteps + 1 }) ∧
  (∀ s : State, s.script = [] → s.irqMask = true → step s = exec .engineBoot s) ∧
  (∀ s : State, s.script = [] → s.irqMask = false → step s = exec .ethCycle s) ∧
  (∀ (s : State) (nbits w : Nat) (i : Instr),
    decodeTableWord nbits w = some i → step (s.withFetchWord nbits w) = exec i s)

/-- What unknown and unaccepted encodings do (R110): the wire codes the engine answers with nothing
(R92, R94, R293) complete and change no state; an ARP operation other than 1 and 2 and an IP
protocol other than 17 are dropped; an operation code that R108 does not list is refused. A wire
code run as an instruction of its own is the model's form (log 14). -/
def Obligations.UnacceptedCodesDoNothing : Prop :=
  (∀ (s : State) (i : Instr), s.run = .running →
    (i ∈ [.arpReply, .dhcpDiscover, .dhcpRequest, .dhcpDecline, .dhcpNak, .dhcpRelease,
        .dhcpInform] ∨
      (∃ et, i = .ethUnknown et ∧ (Instr.ethUnknown et).wellFormed = true)) →
    exec i s = .next s) ∧
  (∀ (s : State) (oper : Word16) (rest : List Event), s.run = .running → oper ≠ 1 → oper ≠ 2 →
    s.script = .coded ⟨.arp, bytes16 oper⟩ :: rest → step s = .next { s with script := rest }) ∧
  (∀ (s : State) (proto : Byte) (rest : List Event), s.run = .running → proto ≠ 17 →
    s.script = .coded ⟨.ipv4, [proto]⟩ :: rest → step s = .next { s with script := rest }) ∧
  (∀ (s : State) (code : Byte) (operands : List Byte) (rest : List Event),
    code ∉ operationCodes → s.script = .coded ⟨.op, code :: operands⟩ :: rest →
    step s = .refused (.undecodable (.unknownOperation code)))

/-! ### Reset and the machine as a whole -/

/-- The reset state of R420, for every choice of the parameters. Fields that R420 calls unspecified
are not stated. -/
def Obligations.ResetStateValues : Prop :=
  ∀ p : Params, let s := State.resetWith p
    s.par = p ∧ s.run = .running ∧ s.fatalReason = 0 ∧ s.ck.init = false ∧ s.live = false ∧
    s.ip = { host := 0, bcast := 0, server := 0, serverMac := 0 } ∧
    s.rtx = { prioEnd := p.prioNone, timeout := p.tMin, wait := p.tMin, start := 0 } ∧
    s.ticks = 0 ∧ s.irqMask = true ∧ s.rxRdptr = p.rxStart ∧
    s.dhcp = { phase := .init, server := 0, offered := 0 } ∧
    s.tftp.active = false ∧ s.tftp.latched = false ∧ s.tftp.hook = false ∧
    s.tftp.verify = false ∧ s.tftp.total = 0 ∧ s.tftp.clientPort = 0

/-- The invariant holds after reset, for every choice of legal parameters (R11; that the ring's
bounds are in order is the model's, log 44) and for the model's own (log 5). -/
def Obligations.ResetSatisfiesInvariant : Prop :=
  (∀ p : Params, paramsValid p = true → Invariant (State.resetWith p)) ∧ Invariant State.reset

/-- Every step keeps the invariant: canonical spaces inside their sizes, configured if and only if
BOUND (R29), the timeout between its bounds (R32), the ring within its 8-bit count, and the rest of
`Invariant`, legal parameters among it (R11; log 44 for one of their constraints). -/
def Obligations.EveryStepKeepsInvariant : Prop :=
  ∀ s t : State, Invariant s → step s = .next t → Invariant t

/-- The DHCP state only moves forward, skipping none (R296). -/
def Obligations.DhcpStateMovesForward : Prop :=
  ∀ s t : State, step s = .next t →
    phaseRank t.dhcp.phase = phaseRank s.dhcp.phase ∨
      phaseRank t.dhcp.phase = phaseRank s.dhcp.phase + 1

/-- The IP configuration is written only by the transition from REQUESTING to BOUND, which takes the
file server from the remembered DHCP server (R28, R292). -/
def Obligations.ConfigurationWrittenOnlyByBinding : Prop :=
  ∀ s t : State, step s = .next t →
    t.ip = s.ip ∨
      (s.dhcp.phase = .requesting ∧ t.dhcp.phase = .bound ∧ t.ip.host ≠ 0 ∧
        t.ip.server = s.dhcp.server)

/-- `IRQ.TICK` counts modulo `2^TICK_BITS` while the interrupt is enabled, in every control state; a
tick while it is masked is lost (R384). Nothing else writes `TICKS` (R397, R431). -/
def Obligations.OnlyTheTimerWritesTicks : Prop :=
  (∀ s : State,
    (s.irqMask = false →
      exec .irqTick s = .next { s with ticks := (s.ticks + 1) % 2 ^ s.par.tickBits }) ∧
    (s.irqMask = true → exec .irqTick s = .next s)) ∧
  (∀ (i : Instr) (s t : State), exec i s = .next t → i ≠ .irqTick → t.ticks = s.ticks)

/-- No byte outside `[DEST_BASE, DEST_LIMIT)` of the destination space is ever changed (R72), and no
byte but those the cursor moves past: a destination byte is written only by the delivery that
appends it (R61, R344). -/
def Obligations.DestinationWritesStayInside : Prop :=
  ∀ (i : Instr) (s t : State) (a : Nat), exec i s = .next t →
    Memory.read t.dest a ≠ Memory.read s.dest a →
      s.tftp.destBase ≤ a ∧ a < s.tftp.destLimit ∧ s.tftp.cursor ≤ a ∧ a < t.tftp.cursor

/-- The observation log only grows (R10, R402), the parameters are constants (R41), and the last
event of a transition that ends the session names its end: a fatal condition with one of the reasons
of R391 (R390), or a transfer of control (R350). -/
def Obligations.ObservationLogRecordsTheEnd : Prop :=
  ∀ (i : Instr) (s t : State), exec i s = .next t →
    t.par = s.par ∧ ∃ new : List Obs, t.obs = s.obs ++ new ∧
      (s.run = .running → t.run = .haltedFatal →
        new.getLast? = some (.fatalNotify t.fatalReason) ∧
          1 ≤ t.fatalReason.toNat ∧ t.fatalReason.toNat ≤ 7) ∧
      (s.run = .running → t.run = .transferred → t.fatalReason = s.fatalReason ∧
        new.getLast? = some (.transferControl t.tftp.destBase t.tftp.total)) ∧
      (t.run = .running → t.fatalReason = s.fatalReason)

/-- Outside RUNNING the engine has no step: every operation of MAIN stops, a read request as the
model fault of R402, and only the timer's step remains (R21, R423, R384; the stop's name is the
model's, log 10). -/
def Obligations.EndedSessionTakesNoStep : Prop :=
  ∀ (i : Instr) (s : State), s.run ≠ .running →
    (i = .irqTick ∧ ∃ n, exec i s = .next { s with ticks := n }) ∨
      ((∃ f b l h v, i = .tftpReadRequest f b l h v) ∧ exec i s = .fault .hostProtocol) ∨
      (i ≠ .irqTick ∧ (∀ f b l h v, i ≠ .tftpReadRequest f b l h v) ∧
        exec i s = .fault .mainStopped)

/-- The bytes of the priority slot change only in a transition that sends a new priority frame, so
every retransmission sends the bytes of the first transmission (R79). The parameters are legal (R11;
log 44 for one of their constraints). -/
def Obligations.PrioritySlotKeptBetweenSends : Prop :=
  ∀ (i : Instr) (s t : State) (new : List Obs), paramsValid s.par = true → exec i s = .next t →
    t.run = .running → t.obs = s.obs ++ new → (∀ bytes, Obs.tx .prio bytes false ∉ new) →
    ∀ a, s.par.txPrioStart ≤ a → a < s.par.txPrioStart + s.par.txSlotSize →
      Memory.read t.ctrl a = Memory.read s.ctrl a

/-! ### Checksum Engine -/

/-- The addition step of R139: 16-bit sum with the previous carry, bit 16 the next carry. -/
def Obligations.ChecksumAddsWithCarry : Prop :=
  ∀ (c : Ck) (w : Word16),
    (ckAdd c w).sum.toNat = (c.sum.toNat + w.toNat + (if c.carry then 1 else 0)) % 65536 ∧
    ((ckAdd c w).carry = true ↔
      65536 ≤ c.sum.toNat + w.toNat + (if c.carry then 1 else 0)) ∧
    (ckAdd c w).init = c.init

/-- `CK.RESET` clears sum and carry, whatever they held, and nothing else (R140). -/
def Obligations.ChecksumResetClears : Prop :=
  ∀ s : State, s.run = .running →
    exec .ckReset s = .next { s with ck := { sum := 0, carry := false, init := true } }

/-- `CK.ACCUMULATE` runs R141's loop over a range of the shared buffer, of the template, or of a
pseudo-header, and changes nothing but the accumulator; no bytes change nothing at all; on a
never-reset accumulator it is the model fault CK_UNINIT (R141, R395). An address its space does not
have reads as a free byte, which is the model's (log 9). -/
def Obligations.AccumulateRunsTheLoop : Prop :=
  (∀ (s : State) (space : SumSpace) (off n : Nat), s.run = .running → s.ck.init = false →
    exec (.ckAccumulate space off n) s = .fault .ckUninit) ∧
  (∀ (s : State) (off n : Nat), s.run = .running → s.ck.init = true →
    (∀ space, exec (.ckAccumulate space off 0) s = .next s) ∧
    (off + n ≤ s.par.rxBufSize →
      exec (.ckAccumulate .buf off n) s =
        .next { s with ck := accumulateLoop (fun k => Memory.read s.buf (off + k)) n s.ck }) ∧
    (off + n ≤ 42 →
      exec (.ckAccumulate .tpl off n) s =
        .next { s with ck := accumulateLoop (fun k => Memory.read s.tpl (off + k)) n s.ck }) ∧
    exec (.ckAccumulate .buf off n) s = .next { s with
      ck := accumulateLoop (fun k => spaceByte .buf s.par.rxBufSize s.buf (off + k)) n s.ck } ∧
    exec (.ckAccumulate .tpl off n) s = .next { s with
      ck := accumulateLoop (fun k => spaceByte .tpl 42 s.tpl (off + k)) n s.ck } ∧
    (∀ h : Pseudo, exec (.ckAccumulate (.pseudo h) off n) s = .next { s with
      ck := accumulateLoop
        (fun k => (bytes96 h).getD (off + k) (Config.freeByte .pseudo (off + k))) n s.ck }))

/-- `CK.ACCUMULATE_STREAM` is a copy of what the stream read finds, to the shared buffer, followed by
the sum over the copied bytes (R142); on a never-reset accumulator it is the model fault CK_UNINIT
(R142, R395). The read finds a frame's own bytes where a frame stands at its offset (R400), and
controller memory outside the receive ring (R142, R60; log 22). The model's are: where frames stand (the first at the read
cursor, a later one at the next-frame pointer before it) and the free bytes past a frame's end and
elsewhere in the ring (log 22), the free bytes outside controller memory and the loss of bytes past
the buffer's end (log 9), which link primitives wait (log 18), and the reading that the destination
is never the template or the destination region (log 30). Frames of 65536 bytes or more, which no
length field counts, are left out (log 23). -/
def Obligations.AccumulateStreamCopiesAndSums : Prop :=
  ∀ (s : State) (src off n : Nat) (dst : StreamSpace), s.run = .running → waitsComplete s 1 →
    (s.ck.init = false → exec (.ckAccumulateStream src dst off n) s = .fault .ckUninit) ∧
    (s.ck.init = true → ∃ bytes : List Byte, bytes.length = n ∧
      (∀ f, frameAt s.par s.rxRdptr s.ring src = some f → f.bytes.length < 65536 →
        bytes.take f.bytes.length = f.bytes.take n) ∧
      (frameAt s.par s.rxRdptr s.ring src = none → ¬ ringHas s.par src →
        ∀ k < n, ¬ ringHas s.par (src + k) →
          bytes[k]? = some (spaceByte .ctrl s.par.ctrlMemSize s.ctrl (src + k))) ∧
      exec (.ckAccumulateStream src dst off n) s = .next { s with
        buf := Memory.write s.buf off (bytes.take (s.par.rxBufSize - off))
        ck := accumulateLoop (fun k => bytes.getD k 0) n s.ck
        draws := afterWaits s 1 })

/-- `CK.FOLD` adds the residual carry with its own end-around carry, and the accumulator is
unchanged; on a never-reset accumulator it is the model fault CK_UNINIT (R143). Where the result
goes is the model's (log 16). -/
def Obligations.FoldAddsResidualCarry : Prop :=
  ∀ s : State, s.run = .running →
    (s.ck.init = false → exec .ckFold s = .fault .ckUninit) ∧
    (s.ck.init = true → exec .ckFold s = .next { s with result := .word (
      let t := s.ck.sum.toNat + (if s.ck.carry then 1 else 0)
      BitVec.ofNat 16 (if t < 65536 then t else t - 65536 + 1)) })

/-- The closed form of the fold: after a reset and an accumulation, the value in `[1, 0xFFFF]`
congruent to the sum of the words modulo 0xFFFF, or 0 where every word is 0 (R146). -/
def Obligations.FoldHasClosedForm : Prop :=
  ∀ bs : List Byte, (ckFold (ckSum ckZero bs)).toNat =
    if ∀ w ∈ wordsOf bs, w = 0 then 0 else ((wordsOf bs).sum - 1) % 0xffff + 1

/-- Accumulating a range split at an even offset, without a reset between, is accumulating the whole
range (R147). -/
def Obligations.EvenSplitAccumulatesAlike : Prop :=
  ∀ (s t : State) (space : SumSpace) (off k n : Nat),
    exec (.ckAccumulate space off (2 * k)) s = .next t →
    exec (.ckAccumulate space (off + 2 * k) n) t = exec (.ckAccumulate space off (2 * k + n)) s

/-- The fold depends only on the multiset of words summed (R148). -/
def Obligations.FoldIgnoresWordOrder : Prop :=
  ∀ ws vs : List Word16, ws.Perm vs →
    ckFold (ckSum ckZero (ws.flatMap bytes16)) = ckFold (ckSum ckZero (vs.flatMap bytes16))

/-- The pseudo-operations are their expansions (R109): `CK.VALIDATE` a reset, the pseudo-header if
given, the range, and whether the fold is 0xFFFF (R144); `CK.INSTALL` the field zeroed, a reset, the
range, and the complement of the fold stored in the field (R145). Neither needs an earlier reset.
That the result of `CK.VALIDATE` goes to the result register is the model's (log 16), and so is the
loss of field bytes past the space's end (log 9). -/
def Obligations.PseudoOperationsExpand : Prop :=
  (∀ (s : State) (space : HostSpace) (off n : Nat) (pseudo : Option Pseudo), s.run = .running →
    ∃ a b c : State,
      exec .ckReset s = .next a ∧
      (match pseudo with
        | none => b = a
        | some h => exec (.ckAccumulate (.pseudo h) 0 12) a = .next b) ∧
      exec (.ckAccumulate (match space with | .buf => .buf | .tpl => .tpl) off n) b = .next c ∧
      exec (.ckValidate space off n pseudo) s =
        .next { c with result := .flag (decide (ckFold c.ck = 0xffff)) }) ∧
  (∀ (s : State) (off n field : Nat), s.run = .running →
    (∃ a b : State,
      exec .ckReset { s with
        buf := Memory.write s.buf field (([0, 0] : List Byte).take (s.par.rxBufSize - field)) } =
        .next a ∧
      exec (.ckAccumulate .buf off n) a = .next b ∧
      exec (.ckInstall .buf off n field) s = .next { b with
        buf := Memory.write b.buf field
          ((bytes16 (~~~ ckFold b.ck)).take (s.par.rxBufSize - field)) }) ∧
    (∃ a b : State,
      exec .ckReset { s with
        tpl := Memory.write s.tpl field (([0, 0] : List Byte).take (42 - field)) } = .next a ∧
      exec (.ckAccumulate .tpl off n) a = .next b ∧
      exec (.ckInstall .tpl off n field) s = .next { b with
        tpl := Memory.write b.tpl field ((bytes16 (~~~ ckFold b.ck)).take (42 - field)) }))

/-- Round trip: a range of a space whose field, at an even offset inside it, was installed validates
(R149). That the result of `CK.VALIDATE` goes to the result register is the model's (log 16). -/
def Obligations.InstalledChecksumValidates : Prop :=
  ∀ (s t : State) (space : HostSpace) (off n k : Nat), 2 * k + 2 ≤ n →
    off + n ≤ (match space with | .buf => s.par.rxBufSize | .tpl => 42) →
    exec (.ckInstall space off n (off + 2 * k)) s = .next t →
    ∃ u, exec (.ckValidate space off n none) t = .next u ∧ u.result = .flag true

/-! ### Frame Dispatcher -/

/-- `ETH.RECEIVE` of a frame that fits: its bytes are copied to the shared buffer, it becomes live,
and the stream read accumulates them (R174, R142), which on a never-reset accumulator is the model
fault CK_UNINIT (R23, R142, R395). That the stream read writes the accumulator is the model's
reading (log 17), and so are the waits of the link primitives (log 18); the header in the result
register (log 16), the cleared view (log 13) and the cleared option iterator (log 15) are the
model's own fields. Frames of 65536 bytes or more, which no length field counts, are left out (log
23). -/
def Obligations.ReceiveCopiesAcceptedFrame : Prop :=
  ∀ (s : State) (f : RxFrame) (rest : List RxFrame), s.run = .running → s.ring = f :: rest →
    s.par.rxStart ≤ f.next → f.next ≤ s.par.rxEnd → f.bytes.length < 65536 →
    14 ≤ f.bytes.length → f.bytes.length ≤ s.par.rxBufSize → waitsComplete s 2 →
    (s.ck.init = true → exec .ethReceive s = .next { s with
      buf := Memory.write s.buf 0 f.bytes
      live := true
      liveLen := BitVec.ofNat 16 f.bytes.length
      ipView := none
      opt := optIdle
      ck := accumulateLoop (fun k => f.bytes.getD k 0) f.bytes.length s.ck
      draws := afterWaits s 2
      result := .header { accepted := true, next := f.next } }) ∧
    (s.ck.init = false → exec .ethReceive s = .fault .ckUninit)

/-- `ETH.RECEIVE` of a frame too short or too long drops it whole (R174); a next-frame pointer
outside the ring re-initialises the link, which empties the ring and resets the cursor (R177). Which
link primitives wait is the model's reading (log 18); the result register (log 16), the cleared view
(log 13) and the cleared option iterator (log 15) are the model's own fields. -/
def Obligations.ReceiveDropsOrRecovers : Prop :=
  ∀ (s : State) (f : RxFrame) (rest : List RxFrame), s.run = .running → s.ring = f :: rest →
    f.bytes.length < 65536 → waitsComplete s 2 →
    (s.par.rxStart ≤ f.next → f.next ≤ s.par.rxEnd →
      (f.bytes.length < 14 ∨ s.par.rxBufSize < f.bytes.length) →
      exec .ethReceive s = .next { s with
        draws := afterWaits s 1
        result := .header { accepted := false, next := f.next } }) ∧
    ((f.next < s.par.rxStart ∨ s.par.rxEnd < f.next) →
      exec .ethReceive s = .next { s with
        ring := []
        linkSteps := s.linkSteps + 1
        rxRdptr := s.par.rxStart
        live := false
        ipView := none
        opt := optIdle
        draws := afterWaits s 2
        result := .recovered })

/-- `ETH.DISPATCH`: self-echo and unknown ethertypes are dropped with no state change; ARP and IP go
to their handlers (R175, R92). -/
def Obligations.DispatchSelectsByEthertype : Prop :=
  ∀ s : State, s.run = .running → 14 ≤ s.liveLen.toNat →
    (ethSource s = s.par.localMac → exec .ethDispatch s = .next s) ∧
    (ethSource s ≠ s.par.localMac →
      (ethType s = 0x0806 → exec .ethDispatch s = exec .arpHandleRequest s) ∧
      (ethType s = 0x0800 → exec .ethDispatch s = exec .ipReceive s) ∧
      (ethType s ≠ 0x0806 → ethType s ≠ 0x0800 → exec .ethDispatch s = .next s))

/-- `ETH.POLL` tells whether a frame is available and changes nothing (R172; the result register is
the model's, log 16); `ETH.ADVANCE` frees the frame at the cursor and moves the cursor (R176, R73).
That an empty ring stays empty is the model's (log 21), and so is a cursor outside controller memory
(log 38). Which link primitives wait is the model's reading (log 18). -/
def Obligations.PollAndAdvanceUseTheRing : Prop :=
  ∀ s : State, s.run = .running →
    exec .ethPoll s = .next { s with result := .flag (!s.ring.isEmpty) } ∧
    (∀ next : Nat, waitsComplete s 1 →
      exec (.ethAdvance next) s = .next { s with
        ring := s.ring.tail
        linkSteps := s.linkSteps + 1
        rxRdptr := next
        draws := afterWaits s 1 })

/-- `ETH.TRANSMIT` sends the first bytes of a slot; only a priority transmit touches the
retransmission state, which it dates from now (R178); a frame longer than its slot is SLOT_OVERFLOW
(R64), tested before the wait for completion, which is the model's (log 40). That a length past the
16 bits of R12 is taken as given is the model's too (log 45). Which link primitives wait is the
model's reading (log 18). -/
def Obligations.TransmitSendsTheSlot : Prop :=
  ∀ (s : State) (len : Nat), s.run = .running →
    (s.par.txSlotSize < len → ∀ slot, exec (.ethTransmit slot len) s = .fault .slotOverflow) ∧
    (len ≤ s.par.txSlotSize → waitsComplete s 1 →
      exec (.ethTransmit .reg len) s = .next { s with
        draws := afterWaits s 1
        obs := s.obs ++ [.tx .reg (Memory.readBytes s.ctrl s.par.txRegStart len) false] } ∧
      exec (.ethTransmit .prio len) s = .next { s with
        rtx := { prioEnd := s.par.txPrioStart + len, timeout := s.par.tMin, wait := s.par.tMin,
                 start := s.ticks }
        draws := afterWaits s 1
        obs := s.obs ++ [.tx .prio (Memory.readBytes s.ctrl s.par.txPrioStart len) false] })

/-- `ETH.CHECK_RETRANSMIT`: nothing while nothing is outstanding or the wait has not expired; on an
expiry below the maximum the resident bytes are sent again, the timeout doubles up to `T_MAX`, and
the jitter lengthens the wait alone (R179, R180). The jitter drawn is the model's next draw (log 6).
Which link primitives wait is the model's reading (log 18). -/
def Obligations.CheckRetransmitBacksOff : Prop :=
  ∀ (s : State) (now : Nat), s.run = .running →
    (s.rtx.prioEnd = s.par.prioNone → exec (.ethCheckRetransmit now) s = .next s) ∧
    (elapsed s.par now s.rtx.start < s.rtx.wait → exec (.ethCheckRetransmit now) s = .next s) ∧
    (s.rtx.prioEnd ≠ s.par.prioNone → s.rtx.wait ≤ elapsed s.par now s.rtx.start →
      s.rtx.timeout < s.par.tMax → waitsComplete s 1 → now < 2 ^ s.par.tickBits →
      ∃ j ≤ s.par.jitterMax, exec (.ethCheckRetransmit now) s = .next { s with
        rtx := { prioEnd := s.rtx.prioEnd
                 timeout := min (2 * s.rtx.timeout) s.par.tMax
                 wait := min (2 * s.rtx.timeout) s.par.tMax + j
                 start := now }
        draws := { s.draws with
          pollPos := s.draws.pollPos + 1, jitterPos := s.draws.jitterPos + 1 }
        obs := s.obs ++ [.tx .prio (Memory.readBytes s.ctrl s.par.txPrioStart
          (s.rtx.prioEnd - s.par.txPrioStart)) true] })

/-- An expiry of the wait while the timeout is at its maximum is the fatal condition NO_RESPONSE and
sends nothing (R182). -/
def Obligations.ExpiryAtMaximumIsFatal : Prop :=
  ∀ (s : State) (now : Nat), s.run = .running → s.rtx.prioEnd ≠ s.par.prioNone →
    s.rtx.wait ≤ elapsed s.par now s.rtx.start → s.rtx.timeout = s.par.tMax →
    exec (.ethCheckRetransmit now) s = .next { s with
      run := .haltedFatal
      fatalReason := 0x01
      obs := s.obs ++ [.fatalNotify 0x01] }

/-- Elapsed time is the ticks since the wait began modulo `2^TICK_BITS`: the true number while fewer
have passed, and a gap of a whole period hides itself (R183, R432). -/
def Obligations.ElapsedTimeWraps : Prop :=
  ∀ (p : Params) (start n : Nat), start < 2 ^ p.tickBits →
    elapsed p ((start + n) % 2 ^ p.tickBits) start = n % 2 ^ p.tickBits ∧
    (n < 2 ^ p.tickBits → elapsed p ((start + n) % 2 ^ p.tickBits) start = n) ∧
    elapsed p ((start + 2 ^ p.tickBits) % 2 ^ p.tickBits) start = 0

/-- `ETH.ACKNOWLEDGE`: nothing outstanding, the timer at its minimum (R181). -/
def Obligations.AcknowledgeResetsTheTimer : Prop :=
  ∀ s : State, s.run = .running →
    exec .ethAcknowledge s = .next { s with
      rtx := { prioEnd := s.par.prioNone, timeout := s.par.tMin, wait := s.par.tMin,
               start := s.rtx.start } }

/-- `ETH.CYCLE` with no frame is the retransmission check at the tick sample (R171, R170), and with
nothing outstanding it changes nothing. That a cycle before boot leaves the interrupt mask as it
was (R34), where R170's pseudocode ends with a write of 0, is the model's reading (log 39). -/
def Obligations.CycleWithoutFrameChecksTimer : Prop :=
  ∀ s : State, s.run = .running → s.ring = [] →
    exec .ethCycle s = exec (.ethCheckRetransmit s.ticks) s ∧
    (s.rtx.prioEnd = s.par.prioNone → exec .ethCycle s = .next s)

/-- `ETH.CYCLE` with an accepted frame is receive, dispatch, advance, in that order, and then no
frame is live (R171); a fatal condition in one of the three ends the cycle there (R171, R393). That
a transfer of control (R350) ends it there too, the frame not advanced past, is the model's reading
(log 19). A frame dropped for its length is advanced past and not dispatched (R174, R176);
a next-frame pointer outside the ring ends the cycle with link recovery (R177). The result register
(log 16), the view (log 13) and the option iterator (log 15) are the model's own fields; that the
tick sample leaves the interrupt mask as it was (log 39) and which link primitives wait (log 18) are
the model's reading. -/
def Obligations.CycleRunsReceiveDispatchAdvance : Prop :=
  (∀ (s a : State), s.run = .running → s.ring ≠ [] →
    exec .ethReceive s = .next a →
    (a.run ≠ .running → exec .ethCycle s = .next a) ∧
    (∀ (b : State) (next : Nat), a.run = .running →
      a.result = .header { accepted := true, next := next } →
      exec .ethDispatch { a with result := s.result } = .next b →
      (b.run ≠ .running → exec .ethCycle s = .next b) ∧
      (∀ c : State, b.run = .running → exec (.ethAdvance next) b = .next c →
        (c.run ≠ .running → exec .ethCycle s = .next c) ∧
        (c.run = .running →
          exec .ethCycle s = .next { c with live := false, ipView := none, opt := optIdle })))) ∧
  (∀ (s : State) (f : RxFrame) (rest : List RxFrame), s.run = .running → s.ring = f :: rest →
    f.bytes.length < 65536 → waitsComplete s 2 →
    (s.par.rxStart ≤ f.next → f.next ≤ s.par.rxEnd →
      (f.bytes.length < 14 ∨ s.par.rxBufSize < f.bytes.length) →
      exec .ethCycle s = .next { s with
        ring := rest
        linkSteps := s.linkSteps + 1
        rxRdptr := f.next
        live := false
        ipView := none
        opt := optIdle
        draws := afterWaits s 2 }) ∧
    ((f.next < s.par.rxStart ∨ s.par.rxEnd < f.next) →
      exec .ethCycle s = .next { s with
        ring := []
        linkSteps := s.linkSteps + 1
        rxRdptr := s.par.rxStart
        live := false
        ipView := none
        opt := optIdle
        draws := afterWaits s 2 }))

/-! ### Address Resolver -/

/-- An ARP request for the configured host is answered from the regular slot: the reply is built in
place in the first 42 bytes of the shared buffer, and nothing else of the engine changes (R220 to
R222, R94). A wire code run as an instruction of its own is the model's form (log 14). Which link
primitives wait is the model's reading (log 18). -/
def Obligations.ArpRequestIsAnswered : Prop :=
  ∀ (s : State) (i : Instr), s.run = .running → 42 ≤ s.liveLen.toNat →
    Memory.be16 s.buf 14 = 1 → Memory.be16 s.buf 16 = 0x0800 → Memory.read s.buf 18 = 6 →
    Memory.read s.buf 19 = 4 → s.ip.host ≠ 0 → Memory.be32 s.buf 38 = s.ip.host →
    takesArpRequest s i → 42 ≤ s.par.txSlotSize → waitsComplete s 1 →
    let sha := Memory.readBytes s.buf 22 6
    let spa := Memory.readBytes s.buf 28 4
    let reply := sha ++ bytes48 s.par.localMac ++ Memory.readBytes s.buf 12 8 ++ [0x00, 0x02] ++
      bytes48 s.par.localMac ++ bytes32 s.ip.host ++ sha ++ spa
    ∃ buf : Memory, Memory.readBytes buf 0 42 = reply ∧
      (∀ a, 42 ≤ a → Memory.read buf a = Memory.read s.buf a) ∧
      exec i s = .next { s with
        buf := buf
        ctrl := Memory.write s.ctrl s.par.txRegStart reply
        draws := afterWaits s 1
        obs := s.obs ++ [.tx .reg reply false] }

/-- No reply cases: a request for another address, and a request before any host address is
configured, change nothing (R223). A wire code run as an instruction of its own is the model's form
(log 14). -/
def Obligations.ArpGivesNoReply : Prop :=
  ∀ (s : State) (i : Instr), s.run = .running →
    (i = .arpHandleRequest ∨ i = .arpRequest ∨ i = .ethArp) →
    (Memory.be32 s.buf 38 ≠ s.ip.host ∨ s.ip.host = 0) → exec i s = .next s

/-! ### Internet/Transport layer -/

/-- A datagram that passes the checks of R240 is demultiplexed, with only the checksum state of the
engine written; one for neither handler ends there (R245). A frame that fails a check is silently
dropped: only the checksum state may change (R240). That the state records where the accepted UDP
data and source stand is the model's (log 13). A wire code run as an instruction of its own is the
model's form (log 14). -/
def Obligations.OnlyValidDatagramsAreDemultiplexed : Prop :=
  (∀ (s : State) (i : Instr), s.run = .running → ipFrameAccepted s → takesDatagram s i →
    ∃ c : Ck, c.init = true ∧
      let t := { s with
        ck := c
        ipView := some { off := 14 + 4 * ipIhl s + 8, len := udpLen s - 8, src := ipSource s } }
      exec i s = exec .udpDemux t ∧
      (udpDestPort s ≠ 68 → ¬ (s.tftp.active = true ∧ udpDestPort s = s.tftp.clientPort) →
        exec i s = .next t)) ∧
  (∀ s : State, s.run = .running → (ipProtocol s ≠ 17 ∨ ¬ ipFrameAccepted s) →
    ∃ c : Ck, exec .ipReceive s = .next { s with ck := c })

/-- `UDP.DEMUX`: the transfer's port while a transfer is active, then the DHCP client's, else
dropped; the match is exact (R245). The wire codes of the ports do the same with their own port. A
wire code run as an instruction of its own is the model's form (log 14). -/
def Obligations.DemuxMatchesPortsExactly : Prop :=
  ∀ (s : State) (port : Word16) (i : Instr), s.run = .running → 15 ≤ s.liveLen.toNat →
    14 + 4 * ipIhl s + 4 ≤ s.liveLen.toNat →
    ((i = .udpDemux ∧ udpDestPort s = port) ∨ (i = .udpTftpClient port) ∨
      (i = .udpDhcpServer ∧ port = 67) ∨ (i = .udpTftpServer ∧ port = 69) ∨
      (i = .udpDhcpClient ∧ port = 68)) →
    (s.tftp.active = true ∧ port = s.tftp.clientPort → exec i s = exec .tftpReceive s) ∧
    (¬ (s.tftp.active = true ∧ port = s.tftp.clientPort) →
      (port = 68 → exec i s = exec .dhcpReceive s) ∧ (port ≠ 68 → exec i s = .next s))

/-- `IP.CREATE` writes all 42 bytes of the template, with the IP checksum installed and the UDP
checksum zero (R250); `IP.REPLY` addresses it to the sender of the live frame (R251). A reply whose
ports do not lie inside the live frame is dropped (R71), and one without a live frame that passed
`IP.RECEIVE` is HOST_PROTOCOL (R251). For a UDP length above 65515 the total length is a free value,
which is the model's (log 24). That the live frame passed `IP.RECEIVE` is read from the model's own
view (log 13). -/
def Obligations.CreateAndReplyWriteTemplate : Prop :=
  (∀ (s : State) (i : Instr) (mac : Mac) (ip : Word32) (src dst len : Word16), s.run = .running →
    (i = .ipCreate mac ip src dst len ∨
      (i = .ipReply len ∧ s.live = true ∧ s.ipView.isSome = true ∧
        14 + 4 * ipIhl s + 4 ≤ s.liveLen.toNat ∧ mac = ethSource s ∧
        ip = ipSource s ∧ src = udpDestPort s ∧ dst = udpSourcePort s)) →
    ∃ (tpl : Memory) (c : Ck),
      Memory.readBytes tpl 0 42 = templateBytes mac s.par.localMac s.ip.host ip src dst len ∧
      (∀ a, 42 ≤ a → Memory.read tpl a = Memory.read s.tpl a) ∧ c.init = true ∧
      exec i s = .next { s with tpl := tpl, ck := c }) ∧
  (∀ (s : State) (len : Word16), s.run = .running → s.live = true → s.ipView.isSome = true →
    s.liveLen.toNat < 14 + 4 * ipIhl s + 4 → exec (.ipReply len) s = .next s) ∧
  (∀ (s : State) (len : Word16), s.run = .running → s.live = false ∨ s.ipView = none →
    exec (.ipReply len) s = .fault .hostProtocol)

/-- `IP.SEND`: the template and the payload are written at the start of the slot and sent as one
frame (R252, R178). A wrong UDP length is LENGTH_MISMATCH; then the wait of the stream write may be
fatal, whatever the frame's length; then a frame longer than the slot is SLOT_OVERFLOW (R252, R387),
before the transmit's own wait, which is the model's (log 40); then that wait may be fatal, with the
slot written and a priority frame tracked (R178, R401). That a frame past 65535 bytes is sent from a
slot that large is the model's (log 45). Which link primitives wait is the model's reading (log
18). -/
def Obligations.SendTransmitsTemplateAndPayload : Prop :=
  ∀ (s : State) (slot : Slot) (payload : List Byte), s.run = .running →
    let frame := Memory.readBytes s.tpl 0 42 ++ payload
    ((Memory.be16 s.tpl 38).toNat ≠ 8 + payload.length →
      exec (.ipSend slot payload) s = .fault .lengthMismatch) ∧
    ((Memory.be16 s.tpl 38).toNat = 8 + payload.length →
      (¬ waitsComplete s 1 → exec (.ipSend slot payload) s = .next { s with
        run := .haltedFatal, fatalReason := 0x07, draws := afterWaits s 1,
        obs := s.obs ++ [.fatalNotify 0x07] }) ∧
      (waitsComplete s 1 → s.par.txSlotSize < 42 + payload.length →
        exec (.ipSend slot payload) s = .fault .slotOverflow) ∧
      (42 + payload.length ≤ s.par.txSlotSize → waitsComplete s 1 → ¬ waitsComplete s 2 →
        exec (.ipSend slot payload) s = .next { s with
          run := .haltedFatal
          fatalReason := 0x07
          ctrl := Memory.write s.ctrl
            (match slot with | .reg => s.par.txRegStart | .prio => s.par.txPrioStart) frame
          rtx := match slot with
            | .reg => s.rtx
            | .prio => { prioEnd := s.par.txPrioStart + frame.length, timeout := s.par.tMin,
                         wait := s.par.tMin, start := s.ticks }
          draws := afterWaits s 2
          obs := s.obs ++ [.fatalNotify 0x07] }) ∧
      (42 + payload.length ≤ s.par.txSlotSize → waitsComplete s 2 →
        exec (.ipSend slot payload) s = .next { s with
          ctrl := Memory.write s.ctrl
            (match slot with | .reg => s.par.txRegStart | .prio => s.par.txPrioStart) frame
          rtx := match slot with
            | .reg => s.rtx
            | .prio => { prioEnd := s.par.txPrioStart + frame.length, timeout := s.par.tMin,
                         wait := s.par.tMin, start := s.ticks }
          draws := afterWaits s 2
          obs := s.obs ++ [.tx slot frame false] }))

/-! ### Host Configuration Client -/

/-- The outbound message layout of R281, for any options, and the options of DISCOVER and REQUEST
(R282, R283). -/
def Obligations.DhcpMessageLayout : Prop :=
  ∀ (p : Params) (o : List Byte) (offered server : Word32), let m := dhcpMessage p o
    m.length = max (240 + o.length) p.dhcpPadTo ∧
    m.take 28 = [1, 1, 6, 0] ++ bytes32 p.dhcpXid ++ List.replicate 20 0 ∧
    (m.drop 28).take 6 = bytes48 p.localMac ∧
    (m.drop 34).take 202 = List.replicate 202 0 ∧
    (m.drop 236).take 4 = [0x63, 0x82, 0x53, 0x63] ∧
    (m.drop 240).take o.length = o ∧
    (∀ b ∈ m.drop (240 + o.length), b = 0) ∧
    discoverOptions p = [0x35, 1, 1] ++ p.dhcpExtraOptions ++ [0xff] ∧
    requestOptions p offered server =
      [0x35, 1, 3, 0x32, 4] ++ bytes32 offered ++ [0x36, 4] ++ bytes32 server ++
        p.dhcpExtraOptions ++ [0xff]

/-- An acceptable OFFER: its server and address are remembered and the REQUEST that names both is
broadcast from the priority slot (R285, R286 row 1, R290, R283). A wire code run as an instruction
of its own is the model's form (log 14). Which link primitives wait is the model's reading (log 18).
-/
def Obligations.OfferBroadcastsRequest : Prop :=
  ∀ (s : State) (i : Instr) (p len : Nat), s.run = .running → s.dhcp.phase = .awaitingOffer →
    udpData s = some (p, len) → 240 ≤ len → (parseOptions s.buf p len).status = .done →
    (i = .dhcpOffer ∨ ((parseOptions s.buf p len).type = some 2 ∧ takesOwnType s i)) →
    Memory.be32 s.buf (p + 16) ≠ 0 →
    let yi := Memory.be32 s.buf (p + 16)
    let m := dhcpMessage s.par (requestOptions s.par yi (ipSource s))
    canSend s m.length →
    ∃ u, SentPriority s u (dhcpFrame s m) ∧
      exec i s = .next { u with
        dhcp := { phase := .requesting, server := ipSource s, offered := yi } }

/-- Binding by an ACK, or by a message with no type, from the remembered server: the configuration
is adopted, the REQUEST acknowledged, and the upper layer notified (R286 rows 2 and 3, R292, R295).
A wire code run as an instruction of its own is the model's form (log 14). -/
def Obligations.AckOrBootpReplyBinds : Prop :=
  ∀ (s : State) (i : Instr) (p len : Nat), s.run = .running → s.dhcp.phase = .requesting →
    ipSource s = s.dhcp.server → udpData s = some (p, len) → 240 ≤ len →
    (parseOptions s.buf p len).status = .done →
    (i = .dhcpAck ∨ i = .dhcpBootpReply ∨
      (((parseOptions s.buf p len).type = some 5 ∨ (parseOptions s.buf p len).type = none) ∧
        takesOwnType s i)) →
    Memory.be32 s.buf (p + 16) ≠ 0 →
    let yi := Memory.be32 s.buf (p + 16)
    let bcast := match (parseOptions s.buf p len).bcast with
      | some b => b
      | none => 0xffffffff
    exec i s = .next { s with
      ip := { host := yi, bcast := bcast, server := s.dhcp.server, serverMac := ethSource s }
      dhcp := { s.dhcp with phase := .bound }
      rtx := { s.rtx with prioEnd := s.par.prioNone, timeout := s.par.tMin, wait := s.par.tMin }
      obs := s.obs ++ [.boundNotify yi bcast s.dhcp.server] }

/-- Every message in no arm of R286 is ignored (R293): from another server while REQUESTING, of
another type, with a zero address, or in another state. A message shorter than 240 bytes is dropped,
whatever its type (R285). A wire code run as an instruction of its own is the model's form
(log 14). -/
def Obligations.OtherMessagesAreIgnored : Prop :=
  (∀ (s : State) (p len : Nat), s.run = .running → udpData s = some (p, len) →
    let type := (parseOptions s.buf p len).type
    ((s.dhcp.phase = .awaitingOffer ∧ type ≠ some 2) ∨
      (s.dhcp.phase = .requesting ∧
        (ipSource s ≠ s.dhcp.server ∨ (type ≠ some 5 ∧ type ≠ none))) ∨
      s.dhcp.phase = .init ∨ Memory.be32 s.buf (p + 16) = 0) →
    exec .dhcpReceive s = .next s) ∧
  (∀ (s : State) (i : Instr) (p len : Nat), s.run = .running → udpData s = some (p, len) →
    len < 240 →
    i ∈ [.dhcpReceive, .dhcpDiscover, .dhcpOffer, .dhcpRequest, .dhcpDecline, .dhcpAck, .dhcpNak,
      .dhcpRelease, .dhcpInform, .dhcpBootpReply] →
    exec i s = .next s)

/-- While BOUND every DHCP message is ignored, whatever its source (R294). A wire code run as an
instruction of its own is the model's form (log 14). -/
def Obligations.BoundIgnoresEveryMessage : Prop :=
  ∀ (s : State) (i : Instr), s.run = .running → s.dhcp.phase = .bound →
    i ∈ [.dhcpReceive, .dhcpDiscover, .dhcpOffer, .dhcpRequest, .dhcpDecline, .dhcpAck, .dhcpNak,
      .dhcpRelease, .dhcpInform, .dhcpBootpReply] →
    exec i s = .next s

/-- A well-formed option list, ended by END or by the end of the data, gives the last message type
and the last broadcast address; every other option is skipped (R300 to R302, R304, R305). Where the
result goes is the model's (log 16), and so is the iterator that is kept (log 15). -/
def Obligations.WellFormedOptionsParse : Prop :=
  ∀ (s : State) (p len : Nat) (items : List OptItem) (rest : List Byte), s.run = .running →
    udpData s = some (p, len) → 240 ≤ len → items.all OptItem.legal = true →
    (Memory.readBytes s.buf (p + 240) (len - 240) = itemBytes items ∨
      Memory.readBytes s.buf (p + 240) (len - 240) = itemBytes items ++ 255 :: rest) →
    ∃ q : OptParse, q.status = .done ∧ q.type = lastType items ∧ q.bcast = lastBroadcast items ∧
      exec .dhcpParseOptions s = .next { s with
        opt := q, result := .options (lastType items) (lastBroadcast items) }

/-- A list that ends in a malformed option is not well formed, and the whole message is dropped with
no state change (R303 to R305, R285). Where the result of a lone parse goes is the model's (log 16),
and so is the iterator that is kept (log 15). -/
def Obligations.MalformedOptionsDropTheMessage : Prop :=
  ∀ (s : State) (p len : Nat) (items : List OptItem) (tail : List Byte), s.run = .running →
    udpData s = some (p, len) → 240 ≤ len → items.all OptItem.legal = true →
    badTail tail = true →
    Memory.readBytes s.buf (p + 240) (len - 240) = itemBytes items ++ tail →
    exec .dhcpReceive s = .next s ∧
      ∃ q : OptParse, q.status = .notWellFormed ∧
        exec .dhcpParseOptions s = .next { s with opt := q, result := .notWellFormed }

/-- One option as a unit: PAD is one byte, END ends the list (R301), 53 and 28 give the type and the
broadcast address (R304, R305), every other option is skipped by its length (R302), and one that is
cut short is not well formed (R303). The iterator's place in the state is the model's (log 15); one
in progress lies inside the live frame (R71), which every step keeps (`iteratorInside`). -/
def Obligations.OptionUnitsAdvanceTheIterator : Prop :=
  ∀ (s : State) (i : Instr), s.run = .running → s.opt.status = .running → s.opt.k < s.opt.stop →
    s.opt.stop ≤ s.liveLen.toNat →
    let l := (Memory.read s.buf (s.opt.k + 1)).toNat
    let fits := s.opt.k + 1 < s.opt.stop ∧ s.opt.k + 2 + l ≤ s.opt.stop
    let skipped := { s.opt with k := s.opt.k + 2 + l }
    let bad := Host.Outcome.next { s with opt := { s.opt with status := .notWellFormed } }
    exec .optPad s = .next { s with opt := { s.opt with k := s.opt.k + 1 } } ∧
    exec .optEnd s = .next { s with opt := { s.opt with status := .done } } ∧
    (i ∈ [.optHostname, .optRequestedIp, .optLeaseTime, .optServerIdentifier,
        .optParameterRequestList, .optMaxMessageSize, .optClientIdentifier] ∨
      (∃ code, i = .optUnknown code ∧ code ∉ listedOptions) →
      (fits → exec i s = .next { s with opt := skipped }) ∧ (¬ fits → exec i s = bad)) ∧
    (fits ∧ l ≠ 0 → exec .optMessageType s = .next { s with
      opt := { skipped with type := some (Memory.read s.buf (s.opt.k + 2)) } }) ∧
    (¬ (fits ∧ l ≠ 0) → exec .optMessageType s = bad) ∧
    (fits ∧ l = 4 → exec .optBroadcastAddress s = .next { s with
      opt := { skipped with bcast := some (Memory.be32 s.buf (s.opt.k + 2)) } }) ∧
    (¬ (fits ∧ l = 4) → exec .optBroadcastAddress s = bad)

/-- The magic cookie is skipped without being checked: whatever its four bytes are, the message is
parsed from `p + 240` alike (R307). -/
def Obligations.CookieIsNotChecked : Prop :=
  ∀ (buf : Memory) (p len : Nat) (cookie : List Byte), cookie.length = 4 →
    parseOptions (Memory.write buf (p + 236) cookie) p len = parseOptions buf p len

/-! ### File Transfer Client -/

/-- `TFTP.READ_REQUEST` starts a session and sends the RRQ to the server from the priority slot,
from a client port that is neither 0 nor 68 (R330 to R333); a request that is not allowed is
HOST_PROTOCOL (R330, R402). Which port is drawn is the model's (log 6). That the tick sample
leaves the interrupt mask as it was (log 39) and which link primitives wait (log 18) are the model's
reading. -/
def Obligations.ReadRequestStartsSession : Prop :=
  ∀ (s : State) (filename : List Byte) (base limit : Nat) (hook verify : Bool),
    let allowed := s.run = .running ∧ s.dhcp.phase = .bound ∧ filename ≠ [] ∧ 0 ∉ filename ∧
      base ≤ limit ∧ (verify = true → s.par.signature ≠ none ∧ hook = false)
    let m := [0x00, 0x01] ++ filename ++ [0x00] ++ s.par.tftpMode ++ [0x00]
    (¬ allowed →
      exec (.tftpReadRequest filename base limit hook verify) s = .fault .hostProtocol) ∧
    (allowed → canSend s m.length →
      ∃ (port : Word16) (t : State), port ≠ 0 ∧ port ≠ 68 ∧
        SentPriority
          { s with
            draws := { s.draws with portPos := s.draws.portPos + 1 }
            tftp := { active := true, expected := 1, latched := false,
                      serverPort := s.tftp.serverPort, clientPort := port, destBase := base,
                      destLimit := limit, cursor := base, total := 0, hook := hook,
                      verify := verify } }
          t
          (templateBytes s.ip.serverMac s.par.localMac s.ip.host s.ip.server port 69
            (BitVec.ofNat 16 (8 + m.length)) ++ m) ∧
        exec (.tftpReadRequest filename base limit hook verify) s = .next t)

/-- A new full block is acknowledged from the priority slot, delivered to the destination or to the
hook, counted in the total, and the next block is expected; the first one pins the server's port
(R335, R340, R341, R343 to R345). A block past the destination's end is the model fault DEST_OVERRUN
(R344, R72). A total past 32 bits is a free value, which is the model's (log 25). A wire code run as
an instruction of its own is the model's form (log 14). Which link primitives wait is the model's
reading (log 18). -/
def Obligations.NewBlockIsAcknowledgedAndDelivered : Prop :=
  ∀ (s : State) (i : Instr) (p : Nat), s.run = .running → udpData s = some (p, 516) →
    takesData s p i → dataAcceptable s 516 → Memory.be16 s.buf (p + 2) = s.tftp.expected →
    let payload := Memory.readBytes s.buf (p + 4) 512
    ∃ (u : State) (total : Word32), SentPriority s u (ackFrame s s.tftp.expected) ∧
      (s.tftp.total.toNat + 512 < 4294967296 → total.toNat = s.tftp.total.toNat + 512) ∧
      (s.tftp.hook = false → s.tftp.destBase ≤ s.tftp.cursor →
        s.tftp.cursor + 512 ≤ s.tftp.destLimit →
        exec i s = .next { u with
          dest := Memory.write s.dest s.tftp.cursor payload
          tftp := { s.tftp with
            latched := true
            serverPort := udpSourcePort s
            expected := s.tftp.expected + 1
            cursor := s.tftp.cursor + 512
            total := total } }) ∧
      (s.tftp.hook = true →
        exec i s = .next { u with
          tftp := { s.tftp with
            latched := true
            serverPort := udpSourcePort s
            expected := s.tftp.expected + 1
            total := total }
          obs := u.obs ++ [.blockHook s.tftp.expected payload] }) ∧
      (s.tftp.hook = false → s.tftp.destLimit < s.tftp.cursor + 512 →
        exec i s = .fault .destOverrun)

/-- A new block of fewer than 512 bytes is acknowledged, delivered to the destination or to the
hook, counted in the total, and then completes the transfer (R340, R341, R343 to R346). One past the
destination's end is the model fault DEST_OVERRUN (R344, R72). A total past 32 bits is a free value,
which is the model's (log 25). A wire code run as an instruction of its own is the model's form (log
14). Which link primitives wait is the model's reading (log 18). -/
def Obligations.ShortBlockCompletesTransfer : Prop :=
  ∀ (s : State) (i : Instr) (p n : Nat), s.run = .running → udpData s = some (p, 4 + n) →
    takesData s p i → dataAcceptable s (4 + n) → n < 512 →
    Memory.be16 s.buf (p + 2) = s.tftp.expected →
    let payload := Memory.readBytes s.buf (p + 4) n
    ∃ (u : State) (total : Word32), SentPriority s u (ackFrame s s.tftp.expected) ∧
      (s.tftp.total.toNat + n < 4294967296 → total.toNat = s.tftp.total.toNat + n) ∧
      (s.tftp.hook = false → s.tftp.destBase ≤ s.tftp.cursor →
        s.tftp.cursor + n ≤ s.tftp.destLimit →
        exec i s = exec .tftpComplete { u with
          dest := Memory.write s.dest s.tftp.cursor payload
          tftp := { s.tftp with
            latched := true
            serverPort := udpSourcePort s
            expected := s.tftp.expected + 1
            cursor := s.tftp.cursor + n
            total := total } }) ∧
      (s.tftp.hook = true →
        exec i s = exec .tftpComplete { u with
          tftp := { s.tftp with
            latched := true
            serverPort := udpSourcePort s
            expected := s.tftp.expected + 1
            total := total }
          obs := u.obs ++ [.blockHook s.tftp.expected payload] }) ∧
      (s.tftp.hook = false → s.tftp.destLimit < s.tftp.cursor + n →
        exec i s = .fault .destOverrun)

/-- A duplicate of the block before the expected one is acknowledged again and changes nothing of
the session or the destination (R339, R340, R341, R349). A wire code run as an instruction of its
own is the model's form (log 14). Which link primitives wait is the model's reading (log 18). -/
def Obligations.DuplicateBlockIsOnlyAcknowledged : Prop :=
  ∀ (s : State) (i : Instr) (p len : Nat), s.run = .running → udpData s = some (p, len) →
    takesData s p i → dataAcceptable s len →
    Memory.be16 s.buf (p + 2) = s.tftp.expected - 1 →
    ∃ u, SentPriority s u (ackFrame s (s.tftp.expected - 1)) ∧ exec i s = .next u

/-- A full DATA block received twice is written once and acknowledged twice (R351). Which link
primitives wait is the model's reading (log 18). -/
def Obligations.DuplicateIsWrittenOnce : Prop :=
  ∀ (s t : State) (p : Nat), s.run = .running → udpData s = some (p, 516) →
    dataAcceptable s 516 → waitsComplete s 4 → Memory.be16 s.buf p = 3 →
    Memory.be16 s.buf (p + 2) = s.tftp.expected → s.tftp.hook = false →
    exec .tftpReceive s = .next t →
    t.dest = Memory.write s.dest s.tftp.cursor (Memory.readBytes s.buf (p + 4) 512) ∧
    ∃ u, exec .tftpReceive t = .next u ∧ u.dest = t.dest ∧ u.tftp = t.tftp ∧
      u.obs = s.obs ++ [.tx .prio (ackFrame s s.tftp.expected) false,
        .tx .prio (ackFrame s s.tftp.expected) false]

/-- A message with opcode 5 is fatal with TFTP_ERROR, whatever its source port and the rest of its
bytes (R336); one whose opcode is neither 3 nor 5 is fatal with TFTP_BAD_OPCODE (R337). A wire code
run as an instruction of its own is the model's form (log 14). -/
def Obligations.ErrorAndOtherOpcodesAreFatal : Prop :=
  ∀ (s : State) (i : Instr) (p len : Nat), s.run = .running → udpData s = some (p, len) →
    2 ≤ len →
    (i = .tftpError ∨ (i = .tftpReceive ∧ Memory.be16 s.buf p = 5) →
      exec i s = .next { s with
        run := .haltedFatal, fatalReason := 0x02, obs := s.obs ++ [.fatalNotify 0x02] }) ∧
    (i = .tftpRrq ∨ i = .tftpAck ∨ (∃ op, i = .tftpOther op ∧ op ≠ 3 ∧ op ≠ 5) ∨
        (i = .tftpReceive ∧ Memory.be16 s.buf p ≠ 3 ∧ Memory.be16 s.buf p ≠ 5) →
      exec i s = .next { s with
        run := .haltedFatal, fatalReason := 0x03, obs := s.obs ++ [.fatalNotify 0x03] })

/-- A DATA message from another port than the pinned one is fatal with TFTP_BAD_PORT (R338); from an
acceptable port, a block that is neither the expected one nor the one before it is fatal with
TFTP_BAD_BLOCK, block N + 2 after block N among them (R339, R352). A DATA message shorter than 4
bytes or with more than 512 bytes of payload is dropped whatever its port and block (R342), and so
is every message with no room for an opcode (R335). A wire code run as an instruction of its own is
the model's form (log 14). -/
def Obligations.DataChecksDropOrAreFatal : Prop :=
  ∀ (s : State) (i : Instr) (p len : Nat), s.run = .running → udpData s = some (p, len) →
    (len < 2 → i ∈ [.tftpReceive, .tftpRrq, .tftpData, .tftpAck, .tftpError] ∨
      (∃ op, i = .tftpOther op) → exec i s = .next s) ∧
    ((i = .tftpData ∨ (i = .tftpReceive ∧ 2 ≤ len ∧ Memory.be16 s.buf p = 3)) →
      let block := Memory.be16 s.buf (p + 2)
      let pinned := s.tftp.latched = true ∧ udpSourcePort s ≠ s.tftp.serverPort
      (len < 4 ∨ 516 < len → exec i s = .next s) ∧
      (4 ≤ len → len ≤ 516 → pinned → exec i s = .next { s with
        run := .haltedFatal, fatalReason := 0x05, obs := s.obs ++ [.fatalNotify 0x05] }) ∧
      (4 ≤ len → len ≤ 516 → ¬ pinned →
        ((block ≠ s.tftp.expected ∧ block ≠ s.tftp.expected - 1) ∨
          (∃ n : Word16, s.tftp.expected = n + 1 ∧ block = n + 2)) →
        exec i s = .next { s with
          run := .haltedFatal, fatalReason := 0x04, obs := s.obs ++ [.fatalNotify 0x04] }))

/-- `TFTP.COMPLETE` acknowledges the last frame and ends the session; unverified, the completion
hook gets the total and chooses whether control is transferred (R347, R350); verified, the signature
in the destination decides between a transfer and SIGNATURE_MISMATCH (R348). Which choice the hook
makes is the model's draw (log 6). -/
def Obligations.CompleteHooksOrVerifies : Prop :=
  ∀ s : State, s.run = .running →
    let a := { s with
      rtx := { s.rtx with prioEnd := s.par.prioNone, timeout := s.par.tMin, wait := s.par.tMin }
      tftp := { s.tftp with active := false } }
    let transfer := Obs.transferControl s.tftp.destBase s.tftp.total
    let hooked := { a with
      draws := { s.draws with transferPos := s.draws.transferPos + 1 }
      obs := s.obs ++ [.completionHook s.tftp.total] }
    (s.tftp.verify = false →
      (transferDraw s = false → exec .tftpComplete s = .next hooked) ∧
      (transferDraw s = true → exec .tftpComplete s =
        .next { hooked with run := .transferred, obs := hooked.obs ++ [transfer] })) ∧
    (∀ (off : Nat) (sig : List Byte), s.tftp.verify = true → s.par.signature = some (off, sig) →
      let found := off + sig.length ≤ s.tftp.total.toNat ∧
        Memory.readBytes s.dest (s.tftp.destBase + off) sig.length = sig
      (found → exec .tftpComplete s =
        .next { a with run := .transferred, obs := s.obs ++ [transfer] }) ∧
      (¬ found → exec .tftpComplete s = .next { a with
        run := .haltedFatal, fatalReason := 0x06, obs := s.obs ++ [.fatalNotify 0x06] }))

/-! ### The timer interrupt, the fatal condition and boot -/

/-- Entry to the fatal condition, with a code of R391, writes the reason, the control state and the
notification, and keeps every other field (R390). A bounded wait that does not complete enters it
with POLL_TIMEOUT and the state as the primitive found it (R401): shown for the wait of a frame
advance. That a code R391 does not list changes nothing is the model's reading (log 28). Which link
primitives wait is the model's reading (log 18). -/
def Obligations.FatalEntryKeepsTheRest : Prop :=
  (∀ (s : State) (code : Byte), s.run = .running →
    (1 ≤ code.toNat → code.toNat ≤ 7 → exec (.fatal code) s = .next { s with
      run := .haltedFatal, fatalReason := code, obs := s.obs ++ [.fatalNotify code] }) ∧
    (code.toNat = 0 ∨ 7 < code.toNat → exec (.fatal code) s = .next s)) ∧
  (∀ (s : State) (next : Nat), s.run = .running → ¬ waitsComplete s 1 →
    exec (.ethAdvance next) s = .next { s with
      run := .haltedFatal, fatalReason := 0x07, draws := afterWaits s 1,
      obs := s.obs ++ [.fatalNotify 0x07] })

/-- `DHCP.BOOT` broadcasts the DISCOVER from the priority slot and awaits an offer (R280, R282), and
outside INIT is the model fault HOST_PROTOCOL. `ENGINE.BOOT` from the reset state brings up the
link, enables the timer interrupt and does the same (R421), and from any other state is
HOST_PROTOCOL. No other instruction writes the interrupt mask: it is 1 until boot, and the sample of
a transition leaves it as it was, which against R170's last write is the model's reading (R34, R386,
D59; log 39). The check of the parameters is the model's (logs 29, 44). Which link primitives wait
is the model's reading (log 18). -/
def Obligations.BootSendsDiscover : Prop :=
  (∀ s : State, s.run = .running →
    let m := dhcpMessage s.par (discoverOptions s.par)
    (s.dhcp.phase ≠ .init → exec .dhcpBoot s = .fault .hostProtocol) ∧
    (s.dhcp.phase = .init → canSend s m.length →
      ∃ u, SentPriority s u (dhcpFrame s m) ∧
        exec .dhcpBoot s = .next { u with dhcp := { s.dhcp with phase := .awaitingOffer } }) ∧
    (isReset s = false → exec .engineBoot s = .fault .hostProtocol) ∧
    (isReset s = true → paramsValid s.par = true → waitsComplete s 3 → 8 + m.length < 65536 →
      ∃ u, SentPriority
          { s with
            ring := []
            linkSteps := s.linkSteps + 1
            rxRdptr := s.par.rxStart
            irqMask := false
            draws := afterWaits s 1 }
          u (dhcpFrame s m) ∧
        exec .engineBoot s = .next { u with dhcp := { s.dhcp with phase := .awaitingOffer } })) ∧
  (∀ (i : Instr) (s t : State), exec i s = .next t → i ≠ .engineBoot → t.irqMask = s.irqMask)

end Obligations
end

