-- ==== Sys2Proof/Laws/Bytes.lean ====
section
/-! SUPPORT. Big-endian bytes: lengths, and reading back what was written. -/

namespace Sys2Proof.Machine

@[simp] theorem bytesBE_length (n v : Nat) : (bytesBE n v).length = n := by
  induction n with
  | zero => rfl
  | succ n ih => simp [bytesBE, ih]

theorem natBE_lt (bs : List Byte) : natBE bs < 256 ^ bs.length := by
  induction bs with
  | nil => simp [natBE]
  | cons b bs ih =>
    have hb : b.toNat < 256 := b.isLt
    have : b.toNat * 256 ^ bs.length + 256 ^ bs.length ≤ 256 * 256 ^ bs.length := by nlinarith
    simp only [natBE, List.length_cons, pow_succ]
    omega

/-- Reading `n` written bytes gives the number modulo `256 ^ n`. -/
theorem natBE_bytesBE (n v : Nat) : natBE (bytesBE n v) = v % 256 ^ n := by
  induction n with
  | zero => simp [bytesBE, natBE, Nat.mod_one]
  | succ n ih =>
    have h : (BitVec.ofNat 8 (v / 256 ^ n)).toNat = v / 256 ^ n % 256 := by simp
    rw [bytesBE, natBE, bytesBE_length, ih, h, pow_succ, Nat.mod_mul]
    ring

/-- Writing the number that bytes hold gives the bytes back. -/
theorem bytesBE_natBE (bs : List Byte) : bytesBE bs.length (natBE bs) = bs := by
  suffices h : ∀ (bs : List Byte) (k : Nat), bytesBE bs.length (natBE bs + k * 256 ^ bs.length) = bs by
    simpa using h bs 0
  intro bs
  induction bs with
  | nil => intro k; rfl
  | cons b bs ih =>
    intro k
    have hpos : 0 < 256 ^ bs.length := Nat.pow_pos (by decide)
    have hlt := natBE_lt bs
    have hdiv : (b.toNat * 256 ^ bs.length + natBE bs + k * (256 ^ bs.length * 256)) / 256 ^ bs.length
        = b.toNat + k * 256 := by
      have : b.toNat * 256 ^ bs.length + natBE bs + k * (256 ^ bs.length * 256)
          = natBE bs + 256 ^ bs.length * (b.toNat + k * 256) := by ring
      rw [this, Nat.add_mul_div_left _ _ hpos, Nat.div_eq_of_lt hlt, Nat.zero_add]
    have hrest : b.toNat * 256 ^ bs.length + natBE bs + k * (256 ^ bs.length * 256)
        = natBE bs + (b.toNat + k * 256) * 256 ^ bs.length := by ring
    simp only [List.length_cons, bytesBE, natBE, pow_succ]
    rw [hdiv, hrest, ih]
    congr 1
    apply BitVec.eq_of_toNat_eq
    have := b.isLt
    simp
    omega

@[simp] theorem bytes16_length (w : Word16) : (bytes16 w).length = 2 := bytesBE_length _ _
@[simp] theorem bytes32_length (w : Word32) : (bytes32 w).length = 4 := bytesBE_length _ _
@[simp] theorem bytes48_length (m : Mac) : (bytes48 m).length = 6 := bytesBE_length _ _
@[simp] theorem bytes96_length (h : Pseudo) : (bytes96 h).length = 12 := bytesBE_length _ _

@[simp] theorem word16_bytes16 (w : Word16) : word16 (bytes16 w) = w := by
  simp [word16, bytes16, natBE_bytesBE, BitVec.ofNat_toNat, Nat.mod_eq_of_lt w.isLt]

@[simp] theorem word32_bytes32 (w : Word32) : word32 (bytes32 w) = w := by
  simp [word32, bytes32, natBE_bytesBE, Nat.mod_eq_of_lt w.isLt]

@[simp] theorem word48_bytes48 (m : Mac) : word48 (bytes48 m) = m := by
  simp [word48, bytes48, natBE_bytesBE, Nat.mod_eq_of_lt m.isLt]

@[simp] theorem word96_bytes96 (h : Pseudo) : word96 (bytes96 h) = h := by
  simp [word96, bytes96, natBE_bytesBE, Nat.mod_eq_of_lt h.isLt]

theorem bytes48_word48 {bs : List Byte} (h : bs.length = 6) : bytes48 (word48 bs) = bs := by
  have hlt := natBE_lt bs
  rw [h] at hlt
  have := bytesBE_natBE bs
  rw [h] at this
  have hn : (word48 bs).toNat = natBE bs := by
    rw [word48, BitVec.toNat_ofNat, Nat.mod_eq_of_lt (by simpa using hlt)]
  rw [bytes48, hn, this]

theorem bytes32_word32 {bs : List Byte} (h : bs.length = 4) : bytes32 (word32 bs) = bs := by
  have hlt := natBE_lt bs
  rw [h] at hlt
  have := bytesBE_natBE bs
  rw [h] at this
  have hn : (word32 bs).toNat = natBE bs := by
    rw [word32, BitVec.toNat_ofNat, Nat.mod_eq_of_lt (by simpa using hlt)]
  rw [bytes32, hn, this]

theorem bytes16_word16 {bs : List Byte} (h : bs.length = 2) : bytes16 (word16 bs) = bs := by
  have hlt := natBE_lt bs
  rw [h] at hlt
  have := bytesBE_natBE bs
  rw [h] at this
  have hn : (word16 bs).toNat = natBE bs := by
    rw [word16, BitVec.toNat_ofNat, Nat.mod_eq_of_lt (by simpa using hlt)]
  rw [bytes16, hn, this]

end Sys2Proof.Machine
end

