-- ==== Sys2Proof/Laws/Memory.lean ====
section
/-! SUPPORT. The laws of a byte space: a read after a write, and the canonical form. -/

namespace Sys2Proof.Machine

@[simp] theorem readBytes_length (m : Memory) (a n : Nat) : (Memory.readBytes m a n).length = n := by
  simp [Memory.readBytes]

theorem readBytes_zero (m : Memory) (a : Nat) : Memory.readBytes m a 0 = [] := rfl

theorem readBytes_getElem (m : Memory) (a n i : Nat) (h : i < (Memory.readBytes m a n).length) :
    (Memory.readBytes m a n)[i] = Memory.read m (a + i) := by
  simp [Memory.readBytes]

theorem readBytes_add (m : Memory) (a n k : Nat) :
    Memory.readBytes m a (n + k) = Memory.readBytes m a n ++ Memory.readBytes m (a + n) k := by
  simp [Memory.readBytes, List.range_add, Nat.add_assoc]

theorem readBytes_succ (m : Memory) (a n : Nat) :
    Memory.readBytes m a (n + 1) = Memory.read m a :: Memory.readBytes m (a + 1) n := by
  rw [Nat.add_comm, readBytes_add]
  simp [Memory.readBytes]

theorem readBytes_split3 (m : Memory) (x a b c : Nat) :
    Memory.readBytes m x (a + b + c) =
      Memory.readBytes m x a ++ Memory.readBytes m (x + a) b ++ Memory.readBytes m (x + a + b) c := by
  rw [readBytes_add, readBytes_add]
  simp [Nat.add_assoc]

/-- The first byte of a range that is not empty. -/
theorem readBytes_cons {m : Memory} {a n : Nat} {b : Byte} {bs : List Byte}
    (h : Memory.readBytes m a n = b :: bs) :
    ∃ k, n = k + 1 ∧ Memory.read m a = b ∧ Memory.readBytes m (a + 1) k = bs := by
  cases n with
  | zero => simp [readBytes_zero] at h
  | succ k =>
    rw [readBytes_succ] at h
    injection h with h1 h2
    exact ⟨k, rfl, h1, h2⟩

/-- A range that reads as two strings is two ranges. -/
theorem readBytes_app {m : Memory} {a n : Nat} {xs ys : List Byte}
    (h : Memory.readBytes m a n = xs ++ ys) :
    ∃ k, n = xs.length + k ∧ Memory.readBytes m a xs.length = xs ∧
      Memory.readBytes m (a + xs.length) k = ys := by
  have hl := congrArg List.length h
  simp at hl
  obtain ⟨k, rfl⟩ : ∃ k, n = xs.length + k := ⟨ys.length, hl⟩
  rw [readBytes_add] at h
  exact ⟨k, rfl, List.append_inj_left h (by simp), List.append_inj_right h (by simp)⟩

/-- Two spaces that agree on a range read alike there. -/
theorem readBytes_congr {m m' : Memory} {a n : Nat}
    (h : ∀ x, a ≤ x → x < a + n → Memory.read m x = Memory.read m' x) :
    Memory.readBytes m a n = Memory.readBytes m' a n := by
  simp only [Memory.readBytes, List.map_inj_left, List.mem_range]
  intro i hi
  exact h _ (by omega) (by omega)

/-! ### Read after write -/

theorem read_append (l r : Memory) (x : Nat) :
    Memory.read (l ++ r) x = if x ∈ l.map Prod.fst then Memory.read l x else Memory.read r x := by
  induction l with
  | nil => simp
  | cons c l ih =>
    by_cases h : c.1 = x
    · simp [Memory.read, h]
    · simp [Memory.read, h, ih, Ne.symm h]

theorem read_of_notMem {m : Memory} {x : Nat} (h : x ∉ m.map Prod.fst) :
    Memory.read m x = Memory.unlisted := by
  induction m with
  | nil => rfl
  | cons c m ih =>
    simp only [List.map_cons, List.mem_cons, not_or] at h
    simp [Memory.read, Ne.symm h.1, ih h.2]

theorem read_filter {m : Memory} {p : Nat → Bool} {x : Nat} :
    Memory.read (m.filter fun c => p c.1) x = if p x then Memory.read m x else Memory.unlisted := by
  induction m with
  | nil => simp [Memory.read]
  | cons c m ih =>
    by_cases hc : p c.1 <;> by_cases hx : c.1 = x
    · subst hx; simp [hc, Memory.read]
    · simp only [List.filter_cons, hc, if_true, Memory.read, hx, if_false]; exact ih
    · subst hx; simp only [List.filter_cons, hc]; simpa [hc] using ih
    · simp only [List.filter_cons, hc, Memory.read, hx, if_false]; exact ih

theorem read_cells (a : Nat) (bs : List Byte) (x : Nat) :
    Memory.read (Memory.cells a bs) x =
      if a ≤ x then bs.getD (x - a) Memory.unlisted else Memory.unlisted := by
  induction bs generalizing a with
  | nil => simp [Memory.cells, Memory.read]
  | cons b bs ih =>
    rcases Nat.lt_trichotomy x a with h | h | h
    · have h1 : ¬ a ≤ x := by omega
      have h2 : ¬ a + 1 ≤ x := by omega
      have h3 : a ≠ x := by omega
      by_cases hb : b = Memory.unlisted <;> simp [Memory.cells, Memory.read, hb, ih, h1, h2, h3]
    · subst h
      by_cases hb : b = Memory.unlisted <;> simp [Memory.cells, Memory.read, hb, ih]
    · have h1 : a ≤ x := by omega
      have h2 : a + 1 ≤ x := by omega
      have h3 : a ≠ x := by omega
      have h4 : x - a = (x - (a + 1)) + 1 := by omega
      by_cases hb : b = Memory.unlisted <;> simp [Memory.cells, Memory.read, hb, ih, h1, h2, h3, h4]

theorem mem_cells_fst {a : Nat} {bs : List Byte} {x : Nat} (h : x ∈ (Memory.cells a bs).map Prod.fst) :
    a ≤ x ∧ x < a + bs.length := by
  induction bs generalizing a with
  | nil => simp [Memory.cells] at h
  | cons b bs ih =>
    simp only [List.length_cons]
    by_cases hb : b = Memory.unlisted
    · simp only [Memory.cells, hb, if_true] at h
      have := ih h
      omega
    · simp only [Memory.cells, hb, if_false, List.map_cons, List.mem_cons] at h
      rcases h with h | h
      · omega
      · have := ih h
        omega

/-- A read after a write: the written byte inside the range, the old byte outside it. -/
theorem read_write (m : Memory) (a : Nat) (bs : List Byte) (x : Nat) :
    Memory.read (Memory.write m a bs) x =
      if a ≤ x ∧ x < a + bs.length then bs.getD (x - a) Memory.unlisted else Memory.read m x := by
  have hlow : Memory.read (m.filter fun c => decide (c.1 < a)) x =
      if x < a then Memory.read m x else Memory.unlisted := by
    simpa using read_filter (m := m) (p := fun k => decide (k < a)) (x := x)
  have hhigh : Memory.read (m.filter fun c => decide (a + bs.length ≤ c.1)) x =
      if a + bs.length ≤ x then Memory.read m x else Memory.unlisted := by
    simpa using read_filter (m := m) (p := fun k => decide (a + bs.length ≤ k)) (x := x)
  have hlowmem : x ∈ (m.filter fun c => decide (c.1 < a)).map Prod.fst → x < a := by
    simp only [List.mem_map, List.mem_filter, decide_eq_true_eq]
    rintro ⟨c, ⟨-, hc⟩, rfl⟩
    exact hc
  simp only [Memory.write, List.append_assoc, read_append]
  by_cases h1 : x < a
  · have : ¬ (a ≤ x ∧ x < a + bs.length) := by omega
    rw [if_neg this]
    by_cases hm : x ∈ (m.filter fun c => decide (c.1 < a)).map Prod.fst
    · rw [if_pos hm, hlow, if_pos h1]
    · have hr : Memory.read m x = Memory.unlisted := by
        have := read_of_notMem hm
        rwa [hlow, if_pos h1] at this
      rw [if_neg hm]
      have hc : x ∉ (Memory.cells a bs).map Prod.fst := fun hc => by
        have := mem_cells_fst hc
        omega
      rw [if_neg hc, hhigh, if_neg (by omega), hr]
  · have hm : x ∉ (m.filter fun c => decide (c.1 < a)).map Prod.fst := fun hm => h1 (hlowmem hm)
    rw [if_neg hm]
    by_cases h2 : x < a + bs.length
    · have hin : a ≤ x ∧ x < a + bs.length := ⟨by omega, h2⟩
      rw [if_pos hin]
      by_cases hc : x ∈ (Memory.cells a bs).map Prod.fst
      · rw [if_pos hc, read_cells, if_pos (by omega)]
      · have := read_of_notMem hc
        rw [read_cells, if_pos (by omega)] at this
        rw [if_neg hc, hhigh, if_neg (by omega), this]
    · have hc : x ∉ (Memory.cells a bs).map Prod.fst := fun hc => by
        have := mem_cells_fst hc
        omega
      rw [if_neg hc, hhigh, if_pos (by omega), if_neg (by omega)]

/-- Reading back a range that was just written. -/
theorem readBytes_write_same (m : Memory) (a : Nat) (bs : List Byte) :
    Memory.readBytes (Memory.write m a bs) a bs.length = bs := by
  apply List.ext_getElem
  · simp
  · intro i h1 h2
    rw [readBytes_getElem, read_write, if_pos (by omega)]
    simp [h2]

/-- A range inside a written range. -/
theorem readBytes_write_inside (m : Memory) (a b : Nat) (bs : List Byte) (n : Nat) (h1 : a ≤ b)
    (h2 : b + n ≤ a + bs.length) :
    Memory.readBytes (Memory.write m a bs) b n = (bs.drop (b - a)).take n := by
  apply List.ext_getElem
  · simp
    omega
  · intro i hi1 hi2
    simp only [readBytes_length] at hi1
    have hlt : b + i - a < bs.length := by omega
    rw [readBytes_getElem, read_write, if_pos (by omega)]
    have hidx : b - a + i = b + i - a := by omega
    simp [hidx, hlt]

/-- A range that a write leaves alone. -/
theorem readBytes_write_outside (m : Memory) (a b : Nat) (bs : List Byte) (n : Nat)
    (h : b + n ≤ a ∨ a + bs.length ≤ b) :
    Memory.readBytes (Memory.write m a bs) b n = Memory.readBytes m b n := by
  apply readBytes_congr
  intro x h1 h2
  rw [read_write, if_neg (by omega)]

/-! ### The canonical form -/

theorem wf_iff (m : Memory) : Memory.wf m = true ↔
    (∀ c ∈ m, c.2 ≠ Memory.unlisted) ∧ m.Pairwise (fun c d => c.1 < d.1) := by
  induction m with
  | nil => simp [Memory.wf]
  | cons c m ih =>
    simp only [Memory.wf, Bool.and_eq_true, List.all_eq_true, ih, List.mem_cons, forall_eq_or_imp,
      List.pairwise_cons, decide_eq_true_eq]
    tauto

theorem cells_pairwise (a : Nat) (bs : List Byte) :
    (Memory.cells a bs).Pairwise (fun c d => c.1 < d.1) := by
  induction bs generalizing a with
  | nil => simp [Memory.cells]
  | cons b bs ih =>
    by_cases hb : b = Memory.unlisted
    · simpa [Memory.cells, hb] using ih (a + 1)
    · simp only [Memory.cells, hb, if_false, List.pairwise_cons]
      refine ⟨fun d hd => ?_, ih (a + 1)⟩
      have := mem_cells_fst (List.mem_map_of_mem (f := Prod.fst) hd)
      omega

theorem cells_listed {a : Nat} {bs : List Byte} {c : Host.Cell} (h : c ∈ Memory.cells a bs) :
    c.2 ≠ Memory.unlisted := by
  induction bs generalizing a with
  | nil => simp [Memory.cells] at h
  | cons b bs ih =>
    by_cases hb : b = Memory.unlisted
    · exact ih (by simpa [Memory.cells, hb] using h)
    · simp only [Memory.cells, hb, if_false, List.mem_cons] at h
      rcases h with rfl | h
      · exact hb
      · exact ih h

/-- Every write keeps the canonical form. -/
theorem wf_write {m : Memory} (h : Memory.wf m = true) (a : Nat) (bs : List Byte) :
    Memory.wf (Memory.write m a bs) = true := by
  rw [wf_iff] at h ⊢
  obtain ⟨hl, hp⟩ := h
  refine ⟨fun c hc => ?_, ?_⟩
  · simp only [Memory.write, List.mem_append, List.mem_filter] at hc
    rcases hc with (hc | hc) | hc
    · exact hl c hc.1
    · exact cells_listed hc
    · exact hl c hc.1
  · simp only [Memory.write, List.pairwise_append, List.mem_append, List.mem_filter,
      decide_eq_true_eq]
    refine ⟨⟨hp.filter _, cells_pairwise a bs, fun c hc d hd => ?_⟩, hp.filter _, fun c hc d hd => ?_⟩
    · have := mem_cells_fst (List.mem_map_of_mem (f := Prod.fst) hd)
      omega
    · rcases hc with hc | hc
      · omega
      · have := mem_cells_fst (List.mem_map_of_mem (f := Prod.fst) hc)
        omega

/-- The addresses a write lists: those listed before, and those of its range. -/
theorem mem_write_fst {m : Memory} {a : Nat} {bs : List Byte} {x : Nat}
    (h : x ∈ (Memory.write m a bs).map Prod.fst) :
    x ∈ m.map Prod.fst ∨ (a ≤ x ∧ x < a + bs.length) := by
  simp only [Memory.write, List.map_append, List.mem_append] at h
  rcases h with (h | h) | h
  · exact .inl (List.map_subset Prod.fst List.filter_sublist.subset h)
  · exact .inr (mem_cells_fst h)
  · exact .inl (List.map_subset Prod.fst List.filter_sublist.subset h)

/-- A canonical space is its bytes: two that read alike everywhere are equal. -/
theorem eq_of_read {m m' : Memory} (h : Memory.wf m = true) (h' : Memory.wf m' = true)
    (hr : ∀ x, Memory.read m x = Memory.read m' x) : m = m' := by
  have key : ∀ {m : Memory}, Memory.wf m = true → ∀ c : Host.Cell,
      c ∈ m ↔ (c.2 = Memory.read m c.1 ∧ c.2 ≠ Memory.unlisted) := by
    intro m hm c
    induction m with
    | nil =>
      simp only [List.not_mem_nil, Memory.read, false_iff]
      exact fun hc => hc.2 hc.1
    | cons d m ih =>
      obtain ⟨hl, hp⟩ := (wf_iff _).1 hm
      simp only [List.pairwise_cons] at hp
      have hm' : Memory.wf m = true := (wf_iff _).2 ⟨fun e he => hl e (by simp [he]), hp.2⟩
      rw [List.mem_cons, ih hm']
      by_cases hd : d.1 = c.1
      · simp only [Memory.read, hd, if_true]
        constructor
        · rintro (rfl | ⟨hc, hne⟩)
          · exact ⟨rfl, hl c (by simp)⟩
          · have : c ∈ m := (ih hm').2 ⟨hc, hne⟩
            have := hp.1 c this
            omega
        · rintro ⟨hc, -⟩
          exact .inl (Prod.ext hd.symm hc)
      · simp only [Memory.read, hd, if_false]
        constructor
        · rintro (rfl | h)
          · exact absurd rfl hd
          · exact h
        · exact .inr
  obtain ⟨-, hp⟩ := (wf_iff _).1 h
  obtain ⟨-, hp'⟩ := (wf_iff _).1 h'
  have hnd : ∀ {m : Memory}, m.Pairwise (fun c d => c.1 < d.1) → m.Nodup :=
    fun hp => hp.imp fun hcd he => by
      rw [he] at hcd
      exact lt_irrefl _ hcd
  have hperm : m.Perm m' := (List.perm_ext_iff_of_nodup (hnd hp) (hnd hp')).2 fun c => by
    rw [key h, key h', hr]
  exact hperm.eq_of_pairwise (fun c d _ _ hcd hdc => absurd hcd (Nat.lt_asymm hdc)) hp hp'

end Sys2Proof.Machine
end

