-- ==== Sys2Proof/Laws/Checksum.lean ====
section
/-! SUPPORT. What the checksum loop does to an accumulator: its steps, its splits, and its sum modulo
0xFFFF. -/

namespace Sys2Proof.Machine

/-- The checksum loop touches sum and carry alone. -/
@[simp] theorem ckSum_init : ∀ (bs : List Byte) (c : Ck), (ckSum c bs).init = c.init
  | [], _ => rfl
  | [_], _ => rfl
  | _ :: _ :: rest, c => by
    rw [ckSum, ckSum_init rest]
    rfl

/-- Bytes after an even number of bytes are summed as if alone. -/
theorem ckSum_append : ∀ (a b : List Byte) (c : Ck), a.length % 2 = 0 →
    ckSum c (a ++ b) = ckSum (ckSum c a) b
  | [], b, c, _ => by simp [ckSum]
  | [x], b, c, h => by simp at h
  | x :: y :: rest, b, c, h => by
    simp only [List.cons_append, ckSum]
    exact ckSum_append rest b _ (by simpa [Nat.add_assoc] using h)

theorem word16_pair (a b : Byte) : (word16 [a, b]).toNat = a.toNat * 256 + b.toNat := by
  have h1 := a.isLt
  have h2 := b.isLt
  simp [word16, natBE]
  omega

theorem wordsOf_append : ∀ (a b : List Byte), a.length % 2 = 0 →
    wordsOf (a ++ b) = wordsOf a ++ wordsOf b
  | [], b, _ => rfl
  | [x], b, h => by simp at h
  | x :: y :: rest, b, h => by
    simp only [List.cons_append, wordsOf]
    rw [wordsOf_append rest b (by simpa [Nat.add_assoc] using h)]

/-- The value an accumulator stands for: its sum and its pending carry. -/
def ckValue (c : Ck) : Nat := c.sum.toNat + carryIn c.carry

/-- One addition keeps the value modulo 0xFFFF, and gives 0 only from 0. -/
theorem ckAdd_value (c : Ck) (w : Word16) :
    ∃ q, ckValue (ckAdd c w) + 65535 * q = ckValue c + w.toNat ∧
      (ckValue (ckAdd c w) = 0 → ckValue c + w.toNat = 0) := by
  have h1 := c.sum.isLt
  have h2 := w.isLt
  simp only [ckValue, ckAdd, carryIn, BitVec.toNat_ofNat]
  by_cases hc : c.carry = true <;>
    simp only [hc, if_true, decide_eq_true_eq, Bool.false_eq_true, if_false]
  · by_cases h : 65536 ≤ c.sum.toNat + w.toNat + 1
    · exact ⟨1, by simp only [h, if_true]; omega, by simp only [h, if_true]; omega⟩
    · exact ⟨0, by simp only [h, if_false]; omega, by simp only [h, if_false]; omega⟩
  · by_cases h : 65536 ≤ c.sum.toNat + w.toNat
    · exact ⟨1, by simp [h]; omega, by simp [h]⟩
    · exact ⟨0, by simp [h]; omega, by simp [h]; omega⟩

/-- The loop keeps the value modulo 0xFFFF, and gives 0 only where every word is 0. -/
theorem ckSum_value : ∀ (bs : List Byte) (c : Ck),
    ∃ q, ckValue (ckSum c bs) + 65535 * q = ckValue c + (wordsOf bs).sum ∧
      (ckValue (ckSum c bs) = 0 → ckValue c + (wordsOf bs).sum = 0)
  | [], c => ⟨0, by simp [ckSum, wordsOf], by simp [ckSum, wordsOf]⟩
  | [a], c => by
    obtain ⟨q, h1, h2⟩ := ckAdd_value c (word16 [a, 0])
    rw [word16_pair] at h1 h2
    exact ⟨q, by simpa [ckSum, wordsOf] using h1, by simpa [ckSum, wordsOf] using h2⟩
  | a :: b :: rest, c => by
    obtain ⟨q, h1, h2⟩ := ckAdd_value c (word16 [a, b])
    obtain ⟨r, h3, h4⟩ := ckSum_value rest (ckAdd c (word16 [a, b]))
    rw [word16_pair] at h1 h2
    refine ⟨q + r, ?_, fun h => ?_⟩
    · simp only [ckSum, wordsOf, List.sum_cons]
      omega
    · simp only [wordsOf, List.sum_cons]
      obtain ⟨h5, h6⟩ := Nat.add_eq_zero_iff.1 (h4 h)
      rw [h6, Nat.add_zero]
      exact h2 h5

end Sys2Proof.Machine
end

