-- ==== Sys2Proof/Laws/State.lean ====
section
/-! SUPPORT. One lemma per field per update of the state, each true by unfolding: no later proof
unfolds a record update. -/

namespace Sys2Proof.Machine

variable (s : State)

/-! ### setRun -/

@[simp] theorem setRun_par (v : RunState) : (s.setRun v).par = s.par := rfl
@[simp] theorem setRun_run (v : RunState) : (s.setRun v).run = v := rfl
@[simp] theorem setRun_fatalReason (v : RunState) : (s.setRun v).fatalReason = s.fatalReason := rfl
@[simp] theorem setRun_ck (v : RunState) : (s.setRun v).ck = s.ck := rfl
@[simp] theorem setRun_buf (v : RunState) : (s.setRun v).buf = s.buf := rfl
@[simp] theorem setRun_live (v : RunState) : (s.setRun v).live = s.live := rfl
@[simp] theorem setRun_liveLen (v : RunState) : (s.setRun v).liveLen = s.liveLen := rfl
@[simp] theorem setRun_ipView (v : RunState) : (s.setRun v).ipView = s.ipView := rfl
@[simp] theorem setRun_tpl (v : RunState) : (s.setRun v).tpl = s.tpl := rfl
@[simp] theorem setRun_ip (v : RunState) : (s.setRun v).ip = s.ip := rfl
@[simp] theorem setRun_ctrl (v : RunState) : (s.setRun v).ctrl = s.ctrl := rfl
@[simp] theorem setRun_dest (v : RunState) : (s.setRun v).dest = s.dest := rfl
@[simp] theorem setRun_rtx (v : RunState) : (s.setRun v).rtx = s.rtx := rfl
@[simp] theorem setRun_ticks (v : RunState) : (s.setRun v).ticks = s.ticks := rfl
@[simp] theorem setRun_irqMask (v : RunState) : (s.setRun v).irqMask = s.irqMask := rfl
@[simp] theorem setRun_rxRdptr (v : RunState) : (s.setRun v).rxRdptr = s.rxRdptr := rfl
@[simp] theorem setRun_dhcp (v : RunState) : (s.setRun v).dhcp = s.dhcp := rfl
@[simp] theorem setRun_tftp (v : RunState) : (s.setRun v).tftp = s.tftp := rfl
@[simp] theorem setRun_ring (v : RunState) : (s.setRun v).ring = s.ring := rfl
@[simp] theorem setRun_linkSteps (v : RunState) : (s.setRun v).linkSteps = s.linkSteps := rfl
@[simp] theorem setRun_draws (v : RunState) : (s.setRun v).draws = s.draws := rfl
@[simp] theorem setRun_script (v : RunState) : (s.setRun v).script = s.script := rfl
@[simp] theorem setRun_obs (v : RunState) : (s.setRun v).obs = s.obs := rfl
@[simp] theorem setRun_result (v : RunState) : (s.setRun v).result = s.result := rfl
@[simp] theorem setRun_opt (v : RunState) : (s.setRun v).opt = s.opt := rfl

/-! ### setFatalReason -/

@[simp] theorem setFatalReason_par (v : Byte) : (s.setFatalReason v).par = s.par := rfl
@[simp] theorem setFatalReason_run (v : Byte) : (s.setFatalReason v).run = s.run := rfl
@[simp] theorem setFatalReason_fatalReason (v : Byte) : (s.setFatalReason v).fatalReason = v := rfl
@[simp] theorem setFatalReason_ck (v : Byte) : (s.setFatalReason v).ck = s.ck := rfl
@[simp] theorem setFatalReason_buf (v : Byte) : (s.setFatalReason v).buf = s.buf := rfl
@[simp] theorem setFatalReason_live (v : Byte) : (s.setFatalReason v).live = s.live := rfl
@[simp] theorem setFatalReason_liveLen (v : Byte) : (s.setFatalReason v).liveLen = s.liveLen := rfl
@[simp] theorem setFatalReason_ipView (v : Byte) : (s.setFatalReason v).ipView = s.ipView := rfl
@[simp] theorem setFatalReason_tpl (v : Byte) : (s.setFatalReason v).tpl = s.tpl := rfl
@[simp] theorem setFatalReason_ip (v : Byte) : (s.setFatalReason v).ip = s.ip := rfl
@[simp] theorem setFatalReason_ctrl (v : Byte) : (s.setFatalReason v).ctrl = s.ctrl := rfl
@[simp] theorem setFatalReason_dest (v : Byte) : (s.setFatalReason v).dest = s.dest := rfl
@[simp] theorem setFatalReason_rtx (v : Byte) : (s.setFatalReason v).rtx = s.rtx := rfl
@[simp] theorem setFatalReason_ticks (v : Byte) : (s.setFatalReason v).ticks = s.ticks := rfl
@[simp] theorem setFatalReason_irqMask (v : Byte) : (s.setFatalReason v).irqMask = s.irqMask := rfl
@[simp] theorem setFatalReason_rxRdptr (v : Byte) : (s.setFatalReason v).rxRdptr = s.rxRdptr := rfl
@[simp] theorem setFatalReason_dhcp (v : Byte) : (s.setFatalReason v).dhcp = s.dhcp := rfl
@[simp] theorem setFatalReason_tftp (v : Byte) : (s.setFatalReason v).tftp = s.tftp := rfl
@[simp] theorem setFatalReason_ring (v : Byte) : (s.setFatalReason v).ring = s.ring := rfl
@[simp] theorem setFatalReason_linkSteps (v : Byte) : (s.setFatalReason v).linkSteps = s.linkSteps := rfl
@[simp] theorem setFatalReason_draws (v : Byte) : (s.setFatalReason v).draws = s.draws := rfl
@[simp] theorem setFatalReason_script (v : Byte) : (s.setFatalReason v).script = s.script := rfl
@[simp] theorem setFatalReason_obs (v : Byte) : (s.setFatalReason v).obs = s.obs := rfl
@[simp] theorem setFatalReason_result (v : Byte) : (s.setFatalReason v).result = s.result := rfl
@[simp] theorem setFatalReason_opt (v : Byte) : (s.setFatalReason v).opt = s.opt := rfl

/-! ### setCk -/

@[simp] theorem setCk_par (v : Ck) : (s.setCk v).par = s.par := rfl
@[simp] theorem setCk_run (v : Ck) : (s.setCk v).run = s.run := rfl
@[simp] theorem setCk_fatalReason (v : Ck) : (s.setCk v).fatalReason = s.fatalReason := rfl
@[simp] theorem setCk_ck (v : Ck) : (s.setCk v).ck = v := rfl
@[simp] theorem setCk_buf (v : Ck) : (s.setCk v).buf = s.buf := rfl
@[simp] theorem setCk_live (v : Ck) : (s.setCk v).live = s.live := rfl
@[simp] theorem setCk_liveLen (v : Ck) : (s.setCk v).liveLen = s.liveLen := rfl
@[simp] theorem setCk_ipView (v : Ck) : (s.setCk v).ipView = s.ipView := rfl
@[simp] theorem setCk_tpl (v : Ck) : (s.setCk v).tpl = s.tpl := rfl
@[simp] theorem setCk_ip (v : Ck) : (s.setCk v).ip = s.ip := rfl
@[simp] theorem setCk_ctrl (v : Ck) : (s.setCk v).ctrl = s.ctrl := rfl
@[simp] theorem setCk_dest (v : Ck) : (s.setCk v).dest = s.dest := rfl
@[simp] theorem setCk_rtx (v : Ck) : (s.setCk v).rtx = s.rtx := rfl
@[simp] theorem setCk_ticks (v : Ck) : (s.setCk v).ticks = s.ticks := rfl
@[simp] theorem setCk_irqMask (v : Ck) : (s.setCk v).irqMask = s.irqMask := rfl
@[simp] theorem setCk_rxRdptr (v : Ck) : (s.setCk v).rxRdptr = s.rxRdptr := rfl
@[simp] theorem setCk_dhcp (v : Ck) : (s.setCk v).dhcp = s.dhcp := rfl
@[simp] theorem setCk_tftp (v : Ck) : (s.setCk v).tftp = s.tftp := rfl
@[simp] theorem setCk_ring (v : Ck) : (s.setCk v).ring = s.ring := rfl
@[simp] theorem setCk_linkSteps (v : Ck) : (s.setCk v).linkSteps = s.linkSteps := rfl
@[simp] theorem setCk_draws (v : Ck) : (s.setCk v).draws = s.draws := rfl
@[simp] theorem setCk_script (v : Ck) : (s.setCk v).script = s.script := rfl
@[simp] theorem setCk_obs (v : Ck) : (s.setCk v).obs = s.obs := rfl
@[simp] theorem setCk_result (v : Ck) : (s.setCk v).result = s.result := rfl
@[simp] theorem setCk_opt (v : Ck) : (s.setCk v).opt = s.opt := rfl

/-! ### setBuf -/

@[simp] theorem setBuf_par (v : Memory) : (s.setBuf v).par = s.par := rfl
@[simp] theorem setBuf_run (v : Memory) : (s.setBuf v).run = s.run := rfl
@[simp] theorem setBuf_fatalReason (v : Memory) : (s.setBuf v).fatalReason = s.fatalReason := rfl
@[simp] theorem setBuf_ck (v : Memory) : (s.setBuf v).ck = s.ck := rfl
@[simp] theorem setBuf_buf (v : Memory) : (s.setBuf v).buf = v := rfl
@[simp] theorem setBuf_live (v : Memory) : (s.setBuf v).live = s.live := rfl
@[simp] theorem setBuf_liveLen (v : Memory) : (s.setBuf v).liveLen = s.liveLen := rfl
@[simp] theorem setBuf_ipView (v : Memory) : (s.setBuf v).ipView = s.ipView := rfl
@[simp] theorem setBuf_tpl (v : Memory) : (s.setBuf v).tpl = s.tpl := rfl
@[simp] theorem setBuf_ip (v : Memory) : (s.setBuf v).ip = s.ip := rfl
@[simp] theorem setBuf_ctrl (v : Memory) : (s.setBuf v).ctrl = s.ctrl := rfl
@[simp] theorem setBuf_dest (v : Memory) : (s.setBuf v).dest = s.dest := rfl
@[simp] theorem setBuf_rtx (v : Memory) : (s.setBuf v).rtx = s.rtx := rfl
@[simp] theorem setBuf_ticks (v : Memory) : (s.setBuf v).ticks = s.ticks := rfl
@[simp] theorem setBuf_irqMask (v : Memory) : (s.setBuf v).irqMask = s.irqMask := rfl
@[simp] theorem setBuf_rxRdptr (v : Memory) : (s.setBuf v).rxRdptr = s.rxRdptr := rfl
@[simp] theorem setBuf_dhcp (v : Memory) : (s.setBuf v).dhcp = s.dhcp := rfl
@[simp] theorem setBuf_tftp (v : Memory) : (s.setBuf v).tftp = s.tftp := rfl
@[simp] theorem setBuf_ring (v : Memory) : (s.setBuf v).ring = s.ring := rfl
@[simp] theorem setBuf_linkSteps (v : Memory) : (s.setBuf v).linkSteps = s.linkSteps := rfl
@[simp] theorem setBuf_draws (v : Memory) : (s.setBuf v).draws = s.draws := rfl
@[simp] theorem setBuf_script (v : Memory) : (s.setBuf v).script = s.script := rfl
@[simp] theorem setBuf_obs (v : Memory) : (s.setBuf v).obs = s.obs := rfl
@[simp] theorem setBuf_result (v : Memory) : (s.setBuf v).result = s.result := rfl
@[simp] theorem setBuf_opt (v : Memory) : (s.setBuf v).opt = s.opt := rfl

/-! ### setLive -/

@[simp] theorem setLive_par (v : Bool) : (s.setLive v).par = s.par := rfl
@[simp] theorem setLive_run (v : Bool) : (s.setLive v).run = s.run := rfl
@[simp] theorem setLive_fatalReason (v : Bool) : (s.setLive v).fatalReason = s.fatalReason := rfl
@[simp] theorem setLive_ck (v : Bool) : (s.setLive v).ck = s.ck := rfl
@[simp] theorem setLive_buf (v : Bool) : (s.setLive v).buf = s.buf := rfl
@[simp] theorem setLive_live (v : Bool) : (s.setLive v).live = v := rfl
@[simp] theorem setLive_liveLen (v : Bool) : (s.setLive v).liveLen = s.liveLen := rfl
@[simp] theorem setLive_ipView (v : Bool) : (s.setLive v).ipView = s.ipView := rfl
@[simp] theorem setLive_tpl (v : Bool) : (s.setLive v).tpl = s.tpl := rfl
@[simp] theorem setLive_ip (v : Bool) : (s.setLive v).ip = s.ip := rfl
@[simp] theorem setLive_ctrl (v : Bool) : (s.setLive v).ctrl = s.ctrl := rfl
@[simp] theorem setLive_dest (v : Bool) : (s.setLive v).dest = s.dest := rfl
@[simp] theorem setLive_rtx (v : Bool) : (s.setLive v).rtx = s.rtx := rfl
@[simp] theorem setLive_ticks (v : Bool) : (s.setLive v).ticks = s.ticks := rfl
@[simp] theorem setLive_irqMask (v : Bool) : (s.setLive v).irqMask = s.irqMask := rfl
@[simp] theorem setLive_rxRdptr (v : Bool) : (s.setLive v).rxRdptr = s.rxRdptr := rfl
@[simp] theorem setLive_dhcp (v : Bool) : (s.setLive v).dhcp = s.dhcp := rfl
@[simp] theorem setLive_tftp (v : Bool) : (s.setLive v).tftp = s.tftp := rfl
@[simp] theorem setLive_ring (v : Bool) : (s.setLive v).ring = s.ring := rfl
@[simp] theorem setLive_linkSteps (v : Bool) : (s.setLive v).linkSteps = s.linkSteps := rfl
@[simp] theorem setLive_draws (v : Bool) : (s.setLive v).draws = s.draws := rfl
@[simp] theorem setLive_script (v : Bool) : (s.setLive v).script = s.script := rfl
@[simp] theorem setLive_obs (v : Bool) : (s.setLive v).obs = s.obs := rfl
@[simp] theorem setLive_result (v : Bool) : (s.setLive v).result = s.result := rfl
@[simp] theorem setLive_opt (v : Bool) : (s.setLive v).opt = s.opt := rfl

/-! ### setLiveLen -/

@[simp] theorem setLiveLen_par (v : Word16) : (s.setLiveLen v).par = s.par := rfl
@[simp] theorem setLiveLen_run (v : Word16) : (s.setLiveLen v).run = s.run := rfl
@[simp] theorem setLiveLen_fatalReason (v : Word16) : (s.setLiveLen v).fatalReason = s.fatalReason := rfl
@[simp] theorem setLiveLen_ck (v : Word16) : (s.setLiveLen v).ck = s.ck := rfl
@[simp] theorem setLiveLen_buf (v : Word16) : (s.setLiveLen v).buf = s.buf := rfl
@[simp] theorem setLiveLen_live (v : Word16) : (s.setLiveLen v).live = s.live := rfl
@[simp] theorem setLiveLen_liveLen (v : Word16) : (s.setLiveLen v).liveLen = v := rfl
@[simp] theorem setLiveLen_ipView (v : Word16) : (s.setLiveLen v).ipView = s.ipView := rfl
@[simp] theorem setLiveLen_tpl (v : Word16) : (s.setLiveLen v).tpl = s.tpl := rfl
@[simp] theorem setLiveLen_ip (v : Word16) : (s.setLiveLen v).ip = s.ip := rfl
@[simp] theorem setLiveLen_ctrl (v : Word16) : (s.setLiveLen v).ctrl = s.ctrl := rfl
@[simp] theorem setLiveLen_dest (v : Word16) : (s.setLiveLen v).dest = s.dest := rfl
@[simp] theorem setLiveLen_rtx (v : Word16) : (s.setLiveLen v).rtx = s.rtx := rfl
@[simp] theorem setLiveLen_ticks (v : Word16) : (s.setLiveLen v).ticks = s.ticks := rfl
@[simp] theorem setLiveLen_irqMask (v : Word16) : (s.setLiveLen v).irqMask = s.irqMask := rfl
@[simp] theorem setLiveLen_rxRdptr (v : Word16) : (s.setLiveLen v).rxRdptr = s.rxRdptr := rfl
@[simp] theorem setLiveLen_dhcp (v : Word16) : (s.setLiveLen v).dhcp = s.dhcp := rfl
@[simp] theorem setLiveLen_tftp (v : Word16) : (s.setLiveLen v).tftp = s.tftp := rfl
@[simp] theorem setLiveLen_ring (v : Word16) : (s.setLiveLen v).ring = s.ring := rfl
@[simp] theorem setLiveLen_linkSteps (v : Word16) : (s.setLiveLen v).linkSteps = s.linkSteps := rfl
@[simp] theorem setLiveLen_draws (v : Word16) : (s.setLiveLen v).draws = s.draws := rfl
@[simp] theorem setLiveLen_script (v : Word16) : (s.setLiveLen v).script = s.script := rfl
@[simp] theorem setLiveLen_obs (v : Word16) : (s.setLiveLen v).obs = s.obs := rfl
@[simp] theorem setLiveLen_result (v : Word16) : (s.setLiveLen v).result = s.result := rfl
@[simp] theorem setLiveLen_opt (v : Word16) : (s.setLiveLen v).opt = s.opt := rfl

/-! ### setIpView -/

@[simp] theorem setIpView_par (v : Option IpView) : (s.setIpView v).par = s.par := rfl
@[simp] theorem setIpView_run (v : Option IpView) : (s.setIpView v).run = s.run := rfl
@[simp] theorem setIpView_fatalReason (v : Option IpView) : (s.setIpView v).fatalReason = s.fatalReason := rfl
@[simp] theorem setIpView_ck (v : Option IpView) : (s.setIpView v).ck = s.ck := rfl
@[simp] theorem setIpView_buf (v : Option IpView) : (s.setIpView v).buf = s.buf := rfl
@[simp] theorem setIpView_live (v : Option IpView) : (s.setIpView v).live = s.live := rfl
@[simp] theorem setIpView_liveLen (v : Option IpView) : (s.setIpView v).liveLen = s.liveLen := rfl
@[simp] theorem setIpView_ipView (v : Option IpView) : (s.setIpView v).ipView = v := rfl
@[simp] theorem setIpView_tpl (v : Option IpView) : (s.setIpView v).tpl = s.tpl := rfl
@[simp] theorem setIpView_ip (v : Option IpView) : (s.setIpView v).ip = s.ip := rfl
@[simp] theorem setIpView_ctrl (v : Option IpView) : (s.setIpView v).ctrl = s.ctrl := rfl
@[simp] theorem setIpView_dest (v : Option IpView) : (s.setIpView v).dest = s.dest := rfl
@[simp] theorem setIpView_rtx (v : Option IpView) : (s.setIpView v).rtx = s.rtx := rfl
@[simp] theorem setIpView_ticks (v : Option IpView) : (s.setIpView v).ticks = s.ticks := rfl
@[simp] theorem setIpView_irqMask (v : Option IpView) : (s.setIpView v).irqMask = s.irqMask := rfl
@[simp] theorem setIpView_rxRdptr (v : Option IpView) : (s.setIpView v).rxRdptr = s.rxRdptr := rfl
@[simp] theorem setIpView_dhcp (v : Option IpView) : (s.setIpView v).dhcp = s.dhcp := rfl
@[simp] theorem setIpView_tftp (v : Option IpView) : (s.setIpView v).tftp = s.tftp := rfl
@[simp] theorem setIpView_ring (v : Option IpView) : (s.setIpView v).ring = s.ring := rfl
@[simp] theorem setIpView_linkSteps (v : Option IpView) : (s.setIpView v).linkSteps = s.linkSteps := rfl
@[simp] theorem setIpView_draws (v : Option IpView) : (s.setIpView v).draws = s.draws := rfl
@[simp] theorem setIpView_script (v : Option IpView) : (s.setIpView v).script = s.script := rfl
@[simp] theorem setIpView_obs (v : Option IpView) : (s.setIpView v).obs = s.obs := rfl
@[simp] theorem setIpView_result (v : Option IpView) : (s.setIpView v).result = s.result := rfl
@[simp] theorem setIpView_opt (v : Option IpView) : (s.setIpView v).opt = s.opt := rfl

/-! ### setTpl -/

@[simp] theorem setTpl_par (v : Memory) : (s.setTpl v).par = s.par := rfl
@[simp] theorem setTpl_run (v : Memory) : (s.setTpl v).run = s.run := rfl
@[simp] theorem setTpl_fatalReason (v : Memory) : (s.setTpl v).fatalReason = s.fatalReason := rfl
@[simp] theorem setTpl_ck (v : Memory) : (s.setTpl v).ck = s.ck := rfl
@[simp] theorem setTpl_buf (v : Memory) : (s.setTpl v).buf = s.buf := rfl
@[simp] theorem setTpl_live (v : Memory) : (s.setTpl v).live = s.live := rfl
@[simp] theorem setTpl_liveLen (v : Memory) : (s.setTpl v).liveLen = s.liveLen := rfl
@[simp] theorem setTpl_ipView (v : Memory) : (s.setTpl v).ipView = s.ipView := rfl
@[simp] theorem setTpl_tpl (v : Memory) : (s.setTpl v).tpl = v := rfl
@[simp] theorem setTpl_ip (v : Memory) : (s.setTpl v).ip = s.ip := rfl
@[simp] theorem setTpl_ctrl (v : Memory) : (s.setTpl v).ctrl = s.ctrl := rfl
@[simp] theorem setTpl_dest (v : Memory) : (s.setTpl v).dest = s.dest := rfl
@[simp] theorem setTpl_rtx (v : Memory) : (s.setTpl v).rtx = s.rtx := rfl
@[simp] theorem setTpl_ticks (v : Memory) : (s.setTpl v).ticks = s.ticks := rfl
@[simp] theorem setTpl_irqMask (v : Memory) : (s.setTpl v).irqMask = s.irqMask := rfl
@[simp] theorem setTpl_rxRdptr (v : Memory) : (s.setTpl v).rxRdptr = s.rxRdptr := rfl
@[simp] theorem setTpl_dhcp (v : Memory) : (s.setTpl v).dhcp = s.dhcp := rfl
@[simp] theorem setTpl_tftp (v : Memory) : (s.setTpl v).tftp = s.tftp := rfl
@[simp] theorem setTpl_ring (v : Memory) : (s.setTpl v).ring = s.ring := rfl
@[simp] theorem setTpl_linkSteps (v : Memory) : (s.setTpl v).linkSteps = s.linkSteps := rfl
@[simp] theorem setTpl_draws (v : Memory) : (s.setTpl v).draws = s.draws := rfl
@[simp] theorem setTpl_script (v : Memory) : (s.setTpl v).script = s.script := rfl
@[simp] theorem setTpl_obs (v : Memory) : (s.setTpl v).obs = s.obs := rfl
@[simp] theorem setTpl_result (v : Memory) : (s.setTpl v).result = s.result := rfl
@[simp] theorem setTpl_opt (v : Memory) : (s.setTpl v).opt = s.opt := rfl

/-! ### setIp -/

@[simp] theorem setIp_par (v : IpConfig) : (s.setIp v).par = s.par := rfl
@[simp] theorem setIp_run (v : IpConfig) : (s.setIp v).run = s.run := rfl
@[simp] theorem setIp_fatalReason (v : IpConfig) : (s.setIp v).fatalReason = s.fatalReason := rfl
@[simp] theorem setIp_ck (v : IpConfig) : (s.setIp v).ck = s.ck := rfl
@[simp] theorem setIp_buf (v : IpConfig) : (s.setIp v).buf = s.buf := rfl
@[simp] theorem setIp_live (v : IpConfig) : (s.setIp v).live = s.live := rfl
@[simp] theorem setIp_liveLen (v : IpConfig) : (s.setIp v).liveLen = s.liveLen := rfl
@[simp] theorem setIp_ipView (v : IpConfig) : (s.setIp v).ipView = s.ipView := rfl
@[simp] theorem setIp_tpl (v : IpConfig) : (s.setIp v).tpl = s.tpl := rfl
@[simp] theorem setIp_ip (v : IpConfig) : (s.setIp v).ip = v := rfl
@[simp] theorem setIp_ctrl (v : IpConfig) : (s.setIp v).ctrl = s.ctrl := rfl
@[simp] theorem setIp_dest (v : IpConfig) : (s.setIp v).dest = s.dest := rfl
@[simp] theorem setIp_rtx (v : IpConfig) : (s.setIp v).rtx = s.rtx := rfl
@[simp] theorem setIp_ticks (v : IpConfig) : (s.setIp v).ticks = s.ticks := rfl
@[simp] theorem setIp_irqMask (v : IpConfig) : (s.setIp v).irqMask = s.irqMask := rfl
@[simp] theorem setIp_rxRdptr (v : IpConfig) : (s.setIp v).rxRdptr = s.rxRdptr := rfl
@[simp] theorem setIp_dhcp (v : IpConfig) : (s.setIp v).dhcp = s.dhcp := rfl
@[simp] theorem setIp_tftp (v : IpConfig) : (s.setIp v).tftp = s.tftp := rfl
@[simp] theorem setIp_ring (v : IpConfig) : (s.setIp v).ring = s.ring := rfl
@[simp] theorem setIp_linkSteps (v : IpConfig) : (s.setIp v).linkSteps = s.linkSteps := rfl
@[simp] theorem setIp_draws (v : IpConfig) : (s.setIp v).draws = s.draws := rfl
@[simp] theorem setIp_script (v : IpConfig) : (s.setIp v).script = s.script := rfl
@[simp] theorem setIp_obs (v : IpConfig) : (s.setIp v).obs = s.obs := rfl
@[simp] theorem setIp_result (v : IpConfig) : (s.setIp v).result = s.result := rfl
@[simp] theorem setIp_opt (v : IpConfig) : (s.setIp v).opt = s.opt := rfl

/-! ### setCtrl -/

@[simp] theorem setCtrl_par (v : Memory) : (s.setCtrl v).par = s.par := rfl
@[simp] theorem setCtrl_run (v : Memory) : (s.setCtrl v).run = s.run := rfl
@[simp] theorem setCtrl_fatalReason (v : Memory) : (s.setCtrl v).fatalReason = s.fatalReason := rfl
@[simp] theorem setCtrl_ck (v : Memory) : (s.setCtrl v).ck = s.ck := rfl
@[simp] theorem setCtrl_buf (v : Memory) : (s.setCtrl v).buf = s.buf := rfl
@[simp] theorem setCtrl_live (v : Memory) : (s.setCtrl v).live = s.live := rfl
@[simp] theorem setCtrl_liveLen (v : Memory) : (s.setCtrl v).liveLen = s.liveLen := rfl
@[simp] theorem setCtrl_ipView (v : Memory) : (s.setCtrl v).ipView = s.ipView := rfl
@[simp] theorem setCtrl_tpl (v : Memory) : (s.setCtrl v).tpl = s.tpl := rfl
@[simp] theorem setCtrl_ip (v : Memory) : (s.setCtrl v).ip = s.ip := rfl
@[simp] theorem setCtrl_ctrl (v : Memory) : (s.setCtrl v).ctrl = v := rfl
@[simp] theorem setCtrl_dest (v : Memory) : (s.setCtrl v).dest = s.dest := rfl
@[simp] theorem setCtrl_rtx (v : Memory) : (s.setCtrl v).rtx = s.rtx := rfl
@[simp] theorem setCtrl_ticks (v : Memory) : (s.setCtrl v).ticks = s.ticks := rfl
@[simp] theorem setCtrl_irqMask (v : Memory) : (s.setCtrl v).irqMask = s.irqMask := rfl
@[simp] theorem setCtrl_rxRdptr (v : Memory) : (s.setCtrl v).rxRdptr = s.rxRdptr := rfl
@[simp] theorem setCtrl_dhcp (v : Memory) : (s.setCtrl v).dhcp = s.dhcp := rfl
@[simp] theorem setCtrl_tftp (v : Memory) : (s.setCtrl v).tftp = s.tftp := rfl
@[simp] theorem setCtrl_ring (v : Memory) : (s.setCtrl v).ring = s.ring := rfl
@[simp] theorem setCtrl_linkSteps (v : Memory) : (s.setCtrl v).linkSteps = s.linkSteps := rfl
@[simp] theorem setCtrl_draws (v : Memory) : (s.setCtrl v).draws = s.draws := rfl
@[simp] theorem setCtrl_script (v : Memory) : (s.setCtrl v).script = s.script := rfl
@[simp] theorem setCtrl_obs (v : Memory) : (s.setCtrl v).obs = s.obs := rfl
@[simp] theorem setCtrl_result (v : Memory) : (s.setCtrl v).result = s.result := rfl
@[simp] theorem setCtrl_opt (v : Memory) : (s.setCtrl v).opt = s.opt := rfl

/-! ### setDest -/

@[simp] theorem setDest_par (v : Memory) : (s.setDest v).par = s.par := rfl
@[simp] theorem setDest_run (v : Memory) : (s.setDest v).run = s.run := rfl
@[simp] theorem setDest_fatalReason (v : Memory) : (s.setDest v).fatalReason = s.fatalReason := rfl
@[simp] theorem setDest_ck (v : Memory) : (s.setDest v).ck = s.ck := rfl
@[simp] theorem setDest_buf (v : Memory) : (s.setDest v).buf = s.buf := rfl
@[simp] theorem setDest_live (v : Memory) : (s.setDest v).live = s.live := rfl
@[simp] theorem setDest_liveLen (v : Memory) : (s.setDest v).liveLen = s.liveLen := rfl
@[simp] theorem setDest_ipView (v : Memory) : (s.setDest v).ipView = s.ipView := rfl
@[simp] theorem setDest_tpl (v : Memory) : (s.setDest v).tpl = s.tpl := rfl
@[simp] theorem setDest_ip (v : Memory) : (s.setDest v).ip = s.ip := rfl
@[simp] theorem setDest_ctrl (v : Memory) : (s.setDest v).ctrl = s.ctrl := rfl
@[simp] theorem setDest_dest (v : Memory) : (s.setDest v).dest = v := rfl
@[simp] theorem setDest_rtx (v : Memory) : (s.setDest v).rtx = s.rtx := rfl
@[simp] theorem setDest_ticks (v : Memory) : (s.setDest v).ticks = s.ticks := rfl
@[simp] theorem setDest_irqMask (v : Memory) : (s.setDest v).irqMask = s.irqMask := rfl
@[simp] theorem setDest_rxRdptr (v : Memory) : (s.setDest v).rxRdptr = s.rxRdptr := rfl
@[simp] theorem setDest_dhcp (v : Memory) : (s.setDest v).dhcp = s.dhcp := rfl
@[simp] theorem setDest_tftp (v : Memory) : (s.setDest v).tftp = s.tftp := rfl
@[simp] theorem setDest_ring (v : Memory) : (s.setDest v).ring = s.ring := rfl
@[simp] theorem setDest_linkSteps (v : Memory) : (s.setDest v).linkSteps = s.linkSteps := rfl
@[simp] theorem setDest_draws (v : Memory) : (s.setDest v).draws = s.draws := rfl
@[simp] theorem setDest_script (v : Memory) : (s.setDest v).script = s.script := rfl
@[simp] theorem setDest_obs (v : Memory) : (s.setDest v).obs = s.obs := rfl
@[simp] theorem setDest_result (v : Memory) : (s.setDest v).result = s.result := rfl
@[simp] theorem setDest_opt (v : Memory) : (s.setDest v).opt = s.opt := rfl

/-! ### setRtx -/

@[simp] theorem setRtx_par (v : Rtx) : (s.setRtx v).par = s.par := rfl
@[simp] theorem setRtx_run (v : Rtx) : (s.setRtx v).run = s.run := rfl
@[simp] theorem setRtx_fatalReason (v : Rtx) : (s.setRtx v).fatalReason = s.fatalReason := rfl
@[simp] theorem setRtx_ck (v : Rtx) : (s.setRtx v).ck = s.ck := rfl
@[simp] theorem setRtx_buf (v : Rtx) : (s.setRtx v).buf = s.buf := rfl
@[simp] theorem setRtx_live (v : Rtx) : (s.setRtx v).live = s.live := rfl
@[simp] theorem setRtx_liveLen (v : Rtx) : (s.setRtx v).liveLen = s.liveLen := rfl
@[simp] theorem setRtx_ipView (v : Rtx) : (s.setRtx v).ipView = s.ipView := rfl
@[simp] theorem setRtx_tpl (v : Rtx) : (s.setRtx v).tpl = s.tpl := rfl
@[simp] theorem setRtx_ip (v : Rtx) : (s.setRtx v).ip = s.ip := rfl
@[simp] theorem setRtx_ctrl (v : Rtx) : (s.setRtx v).ctrl = s.ctrl := rfl
@[simp] theorem setRtx_dest (v : Rtx) : (s.setRtx v).dest = s.dest := rfl
@[simp] theorem setRtx_rtx (v : Rtx) : (s.setRtx v).rtx = v := rfl
@[simp] theorem setRtx_ticks (v : Rtx) : (s.setRtx v).ticks = s.ticks := rfl
@[simp] theorem setRtx_irqMask (v : Rtx) : (s.setRtx v).irqMask = s.irqMask := rfl
@[simp] theorem setRtx_rxRdptr (v : Rtx) : (s.setRtx v).rxRdptr = s.rxRdptr := rfl
@[simp] theorem setRtx_dhcp (v : Rtx) : (s.setRtx v).dhcp = s.dhcp := rfl
@[simp] theorem setRtx_tftp (v : Rtx) : (s.setRtx v).tftp = s.tftp := rfl
@[simp] theorem setRtx_ring (v : Rtx) : (s.setRtx v).ring = s.ring := rfl
@[simp] theorem setRtx_linkSteps (v : Rtx) : (s.setRtx v).linkSteps = s.linkSteps := rfl
@[simp] theorem setRtx_draws (v : Rtx) : (s.setRtx v).draws = s.draws := rfl
@[simp] theorem setRtx_script (v : Rtx) : (s.setRtx v).script = s.script := rfl
@[simp] theorem setRtx_obs (v : Rtx) : (s.setRtx v).obs = s.obs := rfl
@[simp] theorem setRtx_result (v : Rtx) : (s.setRtx v).result = s.result := rfl
@[simp] theorem setRtx_opt (v : Rtx) : (s.setRtx v).opt = s.opt := rfl

/-! ### setTicks -/

@[simp] theorem setTicks_par (v : Nat) : (s.setTicks v).par = s.par := rfl
@[simp] theorem setTicks_run (v : Nat) : (s.setTicks v).run = s.run := rfl
@[simp] theorem setTicks_fatalReason (v : Nat) : (s.setTicks v).fatalReason = s.fatalReason := rfl
@[simp] theorem setTicks_ck (v : Nat) : (s.setTicks v).ck = s.ck := rfl
@[simp] theorem setTicks_buf (v : Nat) : (s.setTicks v).buf = s.buf := rfl
@[simp] theorem setTicks_live (v : Nat) : (s.setTicks v).live = s.live := rfl
@[simp] theorem setTicks_liveLen (v : Nat) : (s.setTicks v).liveLen = s.liveLen := rfl
@[simp] theorem setTicks_ipView (v : Nat) : (s.setTicks v).ipView = s.ipView := rfl
@[simp] theorem setTicks_tpl (v : Nat) : (s.setTicks v).tpl = s.tpl := rfl
@[simp] theorem setTicks_ip (v : Nat) : (s.setTicks v).ip = s.ip := rfl
@[simp] theorem setTicks_ctrl (v : Nat) : (s.setTicks v).ctrl = s.ctrl := rfl
@[simp] theorem setTicks_dest (v : Nat) : (s.setTicks v).dest = s.dest := rfl
@[simp] theorem setTicks_rtx (v : Nat) : (s.setTicks v).rtx = s.rtx := rfl
@[simp] theorem setTicks_ticks (v : Nat) : (s.setTicks v).ticks = v := rfl
@[simp] theorem setTicks_irqMask (v : Nat) : (s.setTicks v).irqMask = s.irqMask := rfl
@[simp] theorem setTicks_rxRdptr (v : Nat) : (s.setTicks v).rxRdptr = s.rxRdptr := rfl
@[simp] theorem setTicks_dhcp (v : Nat) : (s.setTicks v).dhcp = s.dhcp := rfl
@[simp] theorem setTicks_tftp (v : Nat) : (s.setTicks v).tftp = s.tftp := rfl
@[simp] theorem setTicks_ring (v : Nat) : (s.setTicks v).ring = s.ring := rfl
@[simp] theorem setTicks_linkSteps (v : Nat) : (s.setTicks v).linkSteps = s.linkSteps := rfl
@[simp] theorem setTicks_draws (v : Nat) : (s.setTicks v).draws = s.draws := rfl
@[simp] theorem setTicks_script (v : Nat) : (s.setTicks v).script = s.script := rfl
@[simp] theorem setTicks_obs (v : Nat) : (s.setTicks v).obs = s.obs := rfl
@[simp] theorem setTicks_result (v : Nat) : (s.setTicks v).result = s.result := rfl
@[simp] theorem setTicks_opt (v : Nat) : (s.setTicks v).opt = s.opt := rfl

/-! ### setIrqMask -/

@[simp] theorem setIrqMask_par (v : Bool) : (s.setIrqMask v).par = s.par := rfl
@[simp] theorem setIrqMask_run (v : Bool) : (s.setIrqMask v).run = s.run := rfl
@[simp] theorem setIrqMask_fatalReason (v : Bool) : (s.setIrqMask v).fatalReason = s.fatalReason := rfl
@[simp] theorem setIrqMask_ck (v : Bool) : (s.setIrqMask v).ck = s.ck := rfl
@[simp] theorem setIrqMask_buf (v : Bool) : (s.setIrqMask v).buf = s.buf := rfl
@[simp] theorem setIrqMask_live (v : Bool) : (s.setIrqMask v).live = s.live := rfl
@[simp] theorem setIrqMask_liveLen (v : Bool) : (s.setIrqMask v).liveLen = s.liveLen := rfl
@[simp] theorem setIrqMask_ipView (v : Bool) : (s.setIrqMask v).ipView = s.ipView := rfl
@[simp] theorem setIrqMask_tpl (v : Bool) : (s.setIrqMask v).tpl = s.tpl := rfl
@[simp] theorem setIrqMask_ip (v : Bool) : (s.setIrqMask v).ip = s.ip := rfl
@[simp] theorem setIrqMask_ctrl (v : Bool) : (s.setIrqMask v).ctrl = s.ctrl := rfl
@[simp] theorem setIrqMask_dest (v : Bool) : (s.setIrqMask v).dest = s.dest := rfl
@[simp] theorem setIrqMask_rtx (v : Bool) : (s.setIrqMask v).rtx = s.rtx := rfl
@[simp] theorem setIrqMask_ticks (v : Bool) : (s.setIrqMask v).ticks = s.ticks := rfl
@[simp] theorem setIrqMask_irqMask (v : Bool) : (s.setIrqMask v).irqMask = v := rfl
@[simp] theorem setIrqMask_rxRdptr (v : Bool) : (s.setIrqMask v).rxRdptr = s.rxRdptr := rfl
@[simp] theorem setIrqMask_dhcp (v : Bool) : (s.setIrqMask v).dhcp = s.dhcp := rfl
@[simp] theorem setIrqMask_tftp (v : Bool) : (s.setIrqMask v).tftp = s.tftp := rfl
@[simp] theorem setIrqMask_ring (v : Bool) : (s.setIrqMask v).ring = s.ring := rfl
@[simp] theorem setIrqMask_linkSteps (v : Bool) : (s.setIrqMask v).linkSteps = s.linkSteps := rfl
@[simp] theorem setIrqMask_draws (v : Bool) : (s.setIrqMask v).draws = s.draws := rfl
@[simp] theorem setIrqMask_script (v : Bool) : (s.setIrqMask v).script = s.script := rfl
@[simp] theorem setIrqMask_obs (v : Bool) : (s.setIrqMask v).obs = s.obs := rfl
@[simp] theorem setIrqMask_result (v : Bool) : (s.setIrqMask v).result = s.result := rfl
@[simp] theorem setIrqMask_opt (v : Bool) : (s.setIrqMask v).opt = s.opt := rfl

/-! ### setRxRdptr -/

@[simp] theorem setRxRdptr_par (v : Nat) : (s.setRxRdptr v).par = s.par := rfl
@[simp] theorem setRxRdptr_run (v : Nat) : (s.setRxRdptr v).run = s.run := rfl
@[simp] theorem setRxRdptr_fatalReason (v : Nat) : (s.setRxRdptr v).fatalReason = s.fatalReason := rfl
@[simp] theorem setRxRdptr_ck (v : Nat) : (s.setRxRdptr v).ck = s.ck := rfl
@[simp] theorem setRxRdptr_buf (v : Nat) : (s.setRxRdptr v).buf = s.buf := rfl
@[simp] theorem setRxRdptr_live (v : Nat) : (s.setRxRdptr v).live = s.live := rfl
@[simp] theorem setRxRdptr_liveLen (v : Nat) : (s.setRxRdptr v).liveLen = s.liveLen := rfl
@[simp] theorem setRxRdptr_ipView (v : Nat) : (s.setRxRdptr v).ipView = s.ipView := rfl
@[simp] theorem setRxRdptr_tpl (v : Nat) : (s.setRxRdptr v).tpl = s.tpl := rfl
@[simp] theorem setRxRdptr_ip (v : Nat) : (s.setRxRdptr v).ip = s.ip := rfl
@[simp] theorem setRxRdptr_ctrl (v : Nat) : (s.setRxRdptr v).ctrl = s.ctrl := rfl
@[simp] theorem setRxRdptr_dest (v : Nat) : (s.setRxRdptr v).dest = s.dest := rfl
@[simp] theorem setRxRdptr_rtx (v : Nat) : (s.setRxRdptr v).rtx = s.rtx := rfl
@[simp] theorem setRxRdptr_ticks (v : Nat) : (s.setRxRdptr v).ticks = s.ticks := rfl
@[simp] theorem setRxRdptr_irqMask (v : Nat) : (s.setRxRdptr v).irqMask = s.irqMask := rfl
@[simp] theorem setRxRdptr_rxRdptr (v : Nat) : (s.setRxRdptr v).rxRdptr = v := rfl
@[simp] theorem setRxRdptr_dhcp (v : Nat) : (s.setRxRdptr v).dhcp = s.dhcp := rfl
@[simp] theorem setRxRdptr_tftp (v : Nat) : (s.setRxRdptr v).tftp = s.tftp := rfl
@[simp] theorem setRxRdptr_ring (v : Nat) : (s.setRxRdptr v).ring = s.ring := rfl
@[simp] theorem setRxRdptr_linkSteps (v : Nat) : (s.setRxRdptr v).linkSteps = s.linkSteps := rfl
@[simp] theorem setRxRdptr_draws (v : Nat) : (s.setRxRdptr v).draws = s.draws := rfl
@[simp] theorem setRxRdptr_script (v : Nat) : (s.setRxRdptr v).script = s.script := rfl
@[simp] theorem setRxRdptr_obs (v : Nat) : (s.setRxRdptr v).obs = s.obs := rfl
@[simp] theorem setRxRdptr_result (v : Nat) : (s.setRxRdptr v).result = s.result := rfl
@[simp] theorem setRxRdptr_opt (v : Nat) : (s.setRxRdptr v).opt = s.opt := rfl

/-! ### setDhcp -/

@[simp] theorem setDhcp_par (v : Dhcp) : (s.setDhcp v).par = s.par := rfl
@[simp] theorem setDhcp_run (v : Dhcp) : (s.setDhcp v).run = s.run := rfl
@[simp] theorem setDhcp_fatalReason (v : Dhcp) : (s.setDhcp v).fatalReason = s.fatalReason := rfl
@[simp] theorem setDhcp_ck (v : Dhcp) : (s.setDhcp v).ck = s.ck := rfl
@[simp] theorem setDhcp_buf (v : Dhcp) : (s.setDhcp v).buf = s.buf := rfl
@[simp] theorem setDhcp_live (v : Dhcp) : (s.setDhcp v).live = s.live := rfl
@[simp] theorem setDhcp_liveLen (v : Dhcp) : (s.setDhcp v).liveLen = s.liveLen := rfl
@[simp] theorem setDhcp_ipView (v : Dhcp) : (s.setDhcp v).ipView = s.ipView := rfl
@[simp] theorem setDhcp_tpl (v : Dhcp) : (s.setDhcp v).tpl = s.tpl := rfl
@[simp] theorem setDhcp_ip (v : Dhcp) : (s.setDhcp v).ip = s.ip := rfl
@[simp] theorem setDhcp_ctrl (v : Dhcp) : (s.setDhcp v).ctrl = s.ctrl := rfl
@[simp] theorem setDhcp_dest (v : Dhcp) : (s.setDhcp v).dest = s.dest := rfl
@[simp] theorem setDhcp_rtx (v : Dhcp) : (s.setDhcp v).rtx = s.rtx := rfl
@[simp] theorem setDhcp_ticks (v : Dhcp) : (s.setDhcp v).ticks = s.ticks := rfl
@[simp] theorem setDhcp_irqMask (v : Dhcp) : (s.setDhcp v).irqMask = s.irqMask := rfl
@[simp] theorem setDhcp_rxRdptr (v : Dhcp) : (s.setDhcp v).rxRdptr = s.rxRdptr := rfl
@[simp] theorem setDhcp_dhcp (v : Dhcp) : (s.setDhcp v).dhcp = v := rfl
@[simp] theorem setDhcp_tftp (v : Dhcp) : (s.setDhcp v).tftp = s.tftp := rfl
@[simp] theorem setDhcp_ring (v : Dhcp) : (s.setDhcp v).ring = s.ring := rfl
@[simp] theorem setDhcp_linkSteps (v : Dhcp) : (s.setDhcp v).linkSteps = s.linkSteps := rfl
@[simp] theorem setDhcp_draws (v : Dhcp) : (s.setDhcp v).draws = s.draws := rfl
@[simp] theorem setDhcp_script (v : Dhcp) : (s.setDhcp v).script = s.script := rfl
@[simp] theorem setDhcp_obs (v : Dhcp) : (s.setDhcp v).obs = s.obs := rfl
@[simp] theorem setDhcp_result (v : Dhcp) : (s.setDhcp v).result = s.result := rfl
@[simp] theorem setDhcp_opt (v : Dhcp) : (s.setDhcp v).opt = s.opt := rfl

/-! ### setTftp -/

@[simp] theorem setTftp_par (v : Tftp) : (s.setTftp v).par = s.par := rfl
@[simp] theorem setTftp_run (v : Tftp) : (s.setTftp v).run = s.run := rfl
@[simp] theorem setTftp_fatalReason (v : Tftp) : (s.setTftp v).fatalReason = s.fatalReason := rfl
@[simp] theorem setTftp_ck (v : Tftp) : (s.setTftp v).ck = s.ck := rfl
@[simp] theorem setTftp_buf (v : Tftp) : (s.setTftp v).buf = s.buf := rfl
@[simp] theorem setTftp_live (v : Tftp) : (s.setTftp v).live = s.live := rfl
@[simp] theorem setTftp_liveLen (v : Tftp) : (s.setTftp v).liveLen = s.liveLen := rfl
@[simp] theorem setTftp_ipView (v : Tftp) : (s.setTftp v).ipView = s.ipView := rfl
@[simp] theorem setTftp_tpl (v : Tftp) : (s.setTftp v).tpl = s.tpl := rfl
@[simp] theorem setTftp_ip (v : Tftp) : (s.setTftp v).ip = s.ip := rfl
@[simp] theorem setTftp_ctrl (v : Tftp) : (s.setTftp v).ctrl = s.ctrl := rfl
@[simp] theorem setTftp_dest (v : Tftp) : (s.setTftp v).dest = s.dest := rfl
@[simp] theorem setTftp_rtx (v : Tftp) : (s.setTftp v).rtx = s.rtx := rfl
@[simp] theorem setTftp_ticks (v : Tftp) : (s.setTftp v).ticks = s.ticks := rfl
@[simp] theorem setTftp_irqMask (v : Tftp) : (s.setTftp v).irqMask = s.irqMask := rfl
@[simp] theorem setTftp_rxRdptr (v : Tftp) : (s.setTftp v).rxRdptr = s.rxRdptr := rfl
@[simp] theorem setTftp_dhcp (v : Tftp) : (s.setTftp v).dhcp = s.dhcp := rfl
@[simp] theorem setTftp_tftp (v : Tftp) : (s.setTftp v).tftp = v := rfl
@[simp] theorem setTftp_ring (v : Tftp) : (s.setTftp v).ring = s.ring := rfl
@[simp] theorem setTftp_linkSteps (v : Tftp) : (s.setTftp v).linkSteps = s.linkSteps := rfl
@[simp] theorem setTftp_draws (v : Tftp) : (s.setTftp v).draws = s.draws := rfl
@[simp] theorem setTftp_script (v : Tftp) : (s.setTftp v).script = s.script := rfl
@[simp] theorem setTftp_obs (v : Tftp) : (s.setTftp v).obs = s.obs := rfl
@[simp] theorem setTftp_result (v : Tftp) : (s.setTftp v).result = s.result := rfl
@[simp] theorem setTftp_opt (v : Tftp) : (s.setTftp v).opt = s.opt := rfl

/-! ### setRing -/

@[simp] theorem setRing_par (v : List RxFrame) : (s.setRing v).par = s.par := rfl
@[simp] theorem setRing_run (v : List RxFrame) : (s.setRing v).run = s.run := rfl
@[simp] theorem setRing_fatalReason (v : List RxFrame) : (s.setRing v).fatalReason = s.fatalReason := rfl
@[simp] theorem setRing_ck (v : List RxFrame) : (s.setRing v).ck = s.ck := rfl
@[simp] theorem setRing_buf (v : List RxFrame) : (s.setRing v).buf = s.buf := rfl
@[simp] theorem setRing_live (v : List RxFrame) : (s.setRing v).live = s.live := rfl
@[simp] theorem setRing_liveLen (v : List RxFrame) : (s.setRing v).liveLen = s.liveLen := rfl
@[simp] theorem setRing_ipView (v : List RxFrame) : (s.setRing v).ipView = s.ipView := rfl
@[simp] theorem setRing_tpl (v : List RxFrame) : (s.setRing v).tpl = s.tpl := rfl
@[simp] theorem setRing_ip (v : List RxFrame) : (s.setRing v).ip = s.ip := rfl
@[simp] theorem setRing_ctrl (v : List RxFrame) : (s.setRing v).ctrl = s.ctrl := rfl
@[simp] theorem setRing_dest (v : List RxFrame) : (s.setRing v).dest = s.dest := rfl
@[simp] theorem setRing_rtx (v : List RxFrame) : (s.setRing v).rtx = s.rtx := rfl
@[simp] theorem setRing_ticks (v : List RxFrame) : (s.setRing v).ticks = s.ticks := rfl
@[simp] theorem setRing_irqMask (v : List RxFrame) : (s.setRing v).irqMask = s.irqMask := rfl
@[simp] theorem setRing_rxRdptr (v : List RxFrame) : (s.setRing v).rxRdptr = s.rxRdptr := rfl
@[simp] theorem setRing_dhcp (v : List RxFrame) : (s.setRing v).dhcp = s.dhcp := rfl
@[simp] theorem setRing_tftp (v : List RxFrame) : (s.setRing v).tftp = s.tftp := rfl
@[simp] theorem setRing_ring (v : List RxFrame) : (s.setRing v).ring = v := rfl
@[simp] theorem setRing_linkSteps (v : List RxFrame) : (s.setRing v).linkSteps = s.linkSteps + 1 := rfl
@[simp] theorem setRing_draws (v : List RxFrame) : (s.setRing v).draws = s.draws := rfl
@[simp] theorem setRing_script (v : List RxFrame) : (s.setRing v).script = s.script := rfl
@[simp] theorem setRing_obs (v : List RxFrame) : (s.setRing v).obs = s.obs := rfl
@[simp] theorem setRing_result (v : List RxFrame) : (s.setRing v).result = s.result := rfl
@[simp] theorem setRing_opt (v : List RxFrame) : (s.setRing v).opt = s.opt := rfl

/-! ### setDraws -/

@[simp] theorem setDraws_par (v : Draws) : (s.setDraws v).par = s.par := rfl
@[simp] theorem setDraws_run (v : Draws) : (s.setDraws v).run = s.run := rfl
@[simp] theorem setDraws_fatalReason (v : Draws) : (s.setDraws v).fatalReason = s.fatalReason := rfl
@[simp] theorem setDraws_ck (v : Draws) : (s.setDraws v).ck = s.ck := rfl
@[simp] theorem setDraws_buf (v : Draws) : (s.setDraws v).buf = s.buf := rfl
@[simp] theorem setDraws_live (v : Draws) : (s.setDraws v).live = s.live := rfl
@[simp] theorem setDraws_liveLen (v : Draws) : (s.setDraws v).liveLen = s.liveLen := rfl
@[simp] theorem setDraws_ipView (v : Draws) : (s.setDraws v).ipView = s.ipView := rfl
@[simp] theorem setDraws_tpl (v : Draws) : (s.setDraws v).tpl = s.tpl := rfl
@[simp] theorem setDraws_ip (v : Draws) : (s.setDraws v).ip = s.ip := rfl
@[simp] theorem setDraws_ctrl (v : Draws) : (s.setDraws v).ctrl = s.ctrl := rfl
@[simp] theorem setDraws_dest (v : Draws) : (s.setDraws v).dest = s.dest := rfl
@[simp] theorem setDraws_rtx (v : Draws) : (s.setDraws v).rtx = s.rtx := rfl
@[simp] theorem setDraws_ticks (v : Draws) : (s.setDraws v).ticks = s.ticks := rfl
@[simp] theorem setDraws_irqMask (v : Draws) : (s.setDraws v).irqMask = s.irqMask := rfl
@[simp] theorem setDraws_rxRdptr (v : Draws) : (s.setDraws v).rxRdptr = s.rxRdptr := rfl
@[simp] theorem setDraws_dhcp (v : Draws) : (s.setDraws v).dhcp = s.dhcp := rfl
@[simp] theorem setDraws_tftp (v : Draws) : (s.setDraws v).tftp = s.tftp := rfl
@[simp] theorem setDraws_ring (v : Draws) : (s.setDraws v).ring = s.ring := rfl
@[simp] theorem setDraws_linkSteps (v : Draws) : (s.setDraws v).linkSteps = s.linkSteps := rfl
@[simp] theorem setDraws_draws (v : Draws) : (s.setDraws v).draws = v := rfl
@[simp] theorem setDraws_script (v : Draws) : (s.setDraws v).script = s.script := rfl
@[simp] theorem setDraws_obs (v : Draws) : (s.setDraws v).obs = s.obs := rfl
@[simp] theorem setDraws_result (v : Draws) : (s.setDraws v).result = s.result := rfl
@[simp] theorem setDraws_opt (v : Draws) : (s.setDraws v).opt = s.opt := rfl

/-! ### setScript -/

@[simp] theorem setScript_par (v : List Event) : (s.setScript v).par = s.par := rfl
@[simp] theorem setScript_run (v : List Event) : (s.setScript v).run = s.run := rfl
@[simp] theorem setScript_fatalReason (v : List Event) : (s.setScript v).fatalReason = s.fatalReason := rfl
@[simp] theorem setScript_ck (v : List Event) : (s.setScript v).ck = s.ck := rfl
@[simp] theorem setScript_buf (v : List Event) : (s.setScript v).buf = s.buf := rfl
@[simp] theorem setScript_live (v : List Event) : (s.setScript v).live = s.live := rfl
@[simp] theorem setScript_liveLen (v : List Event) : (s.setScript v).liveLen = s.liveLen := rfl
@[simp] theorem setScript_ipView (v : List Event) : (s.setScript v).ipView = s.ipView := rfl
@[simp] theorem setScript_tpl (v : List Event) : (s.setScript v).tpl = s.tpl := rfl
@[simp] theorem setScript_ip (v : List Event) : (s.setScript v).ip = s.ip := rfl
@[simp] theorem setScript_ctrl (v : List Event) : (s.setScript v).ctrl = s.ctrl := rfl
@[simp] theorem setScript_dest (v : List Event) : (s.setScript v).dest = s.dest := rfl
@[simp] theorem setScript_rtx (v : List Event) : (s.setScript v).rtx = s.rtx := rfl
@[simp] theorem setScript_ticks (v : List Event) : (s.setScript v).ticks = s.ticks := rfl
@[simp] theorem setScript_irqMask (v : List Event) : (s.setScript v).irqMask = s.irqMask := rfl
@[simp] theorem setScript_rxRdptr (v : List Event) : (s.setScript v).rxRdptr = s.rxRdptr := rfl
@[simp] theorem setScript_dhcp (v : List Event) : (s.setScript v).dhcp = s.dhcp := rfl
@[simp] theorem setScript_tftp (v : List Event) : (s.setScript v).tftp = s.tftp := rfl
@[simp] theorem setScript_ring (v : List Event) : (s.setScript v).ring = s.ring := rfl
@[simp] theorem setScript_linkSteps (v : List Event) : (s.setScript v).linkSteps = s.linkSteps := rfl
@[simp] theorem setScript_draws (v : List Event) : (s.setScript v).draws = s.draws := rfl
@[simp] theorem setScript_script (v : List Event) : (s.setScript v).script = v := rfl
@[simp] theorem setScript_obs (v : List Event) : (s.setScript v).obs = s.obs := rfl
@[simp] theorem setScript_result (v : List Event) : (s.setScript v).result = s.result := rfl
@[simp] theorem setScript_opt (v : List Event) : (s.setScript v).opt = s.opt := rfl

/-! ### emit -/

@[simp] theorem emit_par (v : Obs) : (s.emit v).par = s.par := rfl
@[simp] theorem emit_run (v : Obs) : (s.emit v).run = s.run := rfl
@[simp] theorem emit_fatalReason (v : Obs) : (s.emit v).fatalReason = s.fatalReason := rfl
@[simp] theorem emit_ck (v : Obs) : (s.emit v).ck = s.ck := rfl
@[simp] theorem emit_buf (v : Obs) : (s.emit v).buf = s.buf := rfl
@[simp] theorem emit_live (v : Obs) : (s.emit v).live = s.live := rfl
@[simp] theorem emit_liveLen (v : Obs) : (s.emit v).liveLen = s.liveLen := rfl
@[simp] theorem emit_ipView (v : Obs) : (s.emit v).ipView = s.ipView := rfl
@[simp] theorem emit_tpl (v : Obs) : (s.emit v).tpl = s.tpl := rfl
@[simp] theorem emit_ip (v : Obs) : (s.emit v).ip = s.ip := rfl
@[simp] theorem emit_ctrl (v : Obs) : (s.emit v).ctrl = s.ctrl := rfl
@[simp] theorem emit_dest (v : Obs) : (s.emit v).dest = s.dest := rfl
@[simp] theorem emit_rtx (v : Obs) : (s.emit v).rtx = s.rtx := rfl
@[simp] theorem emit_ticks (v : Obs) : (s.emit v).ticks = s.ticks := rfl
@[simp] theorem emit_irqMask (v : Obs) : (s.emit v).irqMask = s.irqMask := rfl
@[simp] theorem emit_rxRdptr (v : Obs) : (s.emit v).rxRdptr = s.rxRdptr := rfl
@[simp] theorem emit_dhcp (v : Obs) : (s.emit v).dhcp = s.dhcp := rfl
@[simp] theorem emit_tftp (v : Obs) : (s.emit v).tftp = s.tftp := rfl
@[simp] theorem emit_ring (v : Obs) : (s.emit v).ring = s.ring := rfl
@[simp] theorem emit_linkSteps (v : Obs) : (s.emit v).linkSteps = s.linkSteps := rfl
@[simp] theorem emit_draws (v : Obs) : (s.emit v).draws = s.draws := rfl
@[simp] theorem emit_script (v : Obs) : (s.emit v).script = s.script := rfl
@[simp] theorem emit_obs (v : Obs) : (s.emit v).obs = s.obs ++ [v] := rfl
@[simp] theorem emit_result (v : Obs) : (s.emit v).result = s.result := rfl
@[simp] theorem emit_opt (v : Obs) : (s.emit v).opt = s.opt := rfl

/-! ### setResult -/

@[simp] theorem setResult_par (v : OpResult) : (s.setResult v).par = s.par := rfl
@[simp] theorem setResult_run (v : OpResult) : (s.setResult v).run = s.run := rfl
@[simp] theorem setResult_fatalReason (v : OpResult) : (s.setResult v).fatalReason = s.fatalReason := rfl
@[simp] theorem setResult_ck (v : OpResult) : (s.setResult v).ck = s.ck := rfl
@[simp] theorem setResult_buf (v : OpResult) : (s.setResult v).buf = s.buf := rfl
@[simp] theorem setResult_live (v : OpResult) : (s.setResult v).live = s.live := rfl
@[simp] theorem setResult_liveLen (v : OpResult) : (s.setResult v).liveLen = s.liveLen := rfl
@[simp] theorem setResult_ipView (v : OpResult) : (s.setResult v).ipView = s.ipView := rfl
@[simp] theorem setResult_tpl (v : OpResult) : (s.setResult v).tpl = s.tpl := rfl
@[simp] theorem setResult_ip (v : OpResult) : (s.setResult v).ip = s.ip := rfl
@[simp] theorem setResult_ctrl (v : OpResult) : (s.setResult v).ctrl = s.ctrl := rfl
@[simp] theorem setResult_dest (v : OpResult) : (s.setResult v).dest = s.dest := rfl
@[simp] theorem setResult_rtx (v : OpResult) : (s.setResult v).rtx = s.rtx := rfl
@[simp] theorem setResult_ticks (v : OpResult) : (s.setResult v).ticks = s.ticks := rfl
@[simp] theorem setResult_irqMask (v : OpResult) : (s.setResult v).irqMask = s.irqMask := rfl
@[simp] theorem setResult_rxRdptr (v : OpResult) : (s.setResult v).rxRdptr = s.rxRdptr := rfl
@[simp] theorem setResult_dhcp (v : OpResult) : (s.setResult v).dhcp = s.dhcp := rfl
@[simp] theorem setResult_tftp (v : OpResult) : (s.setResult v).tftp = s.tftp := rfl
@[simp] theorem setResult_ring (v : OpResult) : (s.setResult v).ring = s.ring := rfl
@[simp] theorem setResult_linkSteps (v : OpResult) : (s.setResult v).linkSteps = s.linkSteps := rfl
@[simp] theorem setResult_draws (v : OpResult) : (s.setResult v).draws = s.draws := rfl
@[simp] theorem setResult_script (v : OpResult) : (s.setResult v).script = s.script := rfl
@[simp] theorem setResult_obs (v : OpResult) : (s.setResult v).obs = s.obs := rfl
@[simp] theorem setResult_result (v : OpResult) : (s.setResult v).result = v := rfl
@[simp] theorem setResult_opt (v : OpResult) : (s.setResult v).opt = s.opt := rfl

/-! ### setOpt -/

@[simp] theorem setOpt_par (v : OptParse) : (s.setOpt v).par = s.par := rfl
@[simp] theorem setOpt_run (v : OptParse) : (s.setOpt v).run = s.run := rfl
@[simp] theorem setOpt_fatalReason (v : OptParse) : (s.setOpt v).fatalReason = s.fatalReason := rfl
@[simp] theorem setOpt_ck (v : OptParse) : (s.setOpt v).ck = s.ck := rfl
@[simp] theorem setOpt_buf (v : OptParse) : (s.setOpt v).buf = s.buf := rfl
@[simp] theorem setOpt_live (v : OptParse) : (s.setOpt v).live = s.live := rfl
@[simp] theorem setOpt_liveLen (v : OptParse) : (s.setOpt v).liveLen = s.liveLen := rfl
@[simp] theorem setOpt_ipView (v : OptParse) : (s.setOpt v).ipView = s.ipView := rfl
@[simp] theorem setOpt_tpl (v : OptParse) : (s.setOpt v).tpl = s.tpl := rfl
@[simp] theorem setOpt_ip (v : OptParse) : (s.setOpt v).ip = s.ip := rfl
@[simp] theorem setOpt_ctrl (v : OptParse) : (s.setOpt v).ctrl = s.ctrl := rfl
@[simp] theorem setOpt_dest (v : OptParse) : (s.setOpt v).dest = s.dest := rfl
@[simp] theorem setOpt_rtx (v : OptParse) : (s.setOpt v).rtx = s.rtx := rfl
@[simp] theorem setOpt_ticks (v : OptParse) : (s.setOpt v).ticks = s.ticks := rfl
@[simp] theorem setOpt_irqMask (v : OptParse) : (s.setOpt v).irqMask = s.irqMask := rfl
@[simp] theorem setOpt_rxRdptr (v : OptParse) : (s.setOpt v).rxRdptr = s.rxRdptr := rfl
@[simp] theorem setOpt_dhcp (v : OptParse) : (s.setOpt v).dhcp = s.dhcp := rfl
@[simp] theorem setOpt_tftp (v : OptParse) : (s.setOpt v).tftp = s.tftp := rfl
@[simp] theorem setOpt_ring (v : OptParse) : (s.setOpt v).ring = s.ring := rfl
@[simp] theorem setOpt_linkSteps (v : OptParse) : (s.setOpt v).linkSteps = s.linkSteps := rfl
@[simp] theorem setOpt_draws (v : OptParse) : (s.setOpt v).draws = s.draws := rfl
@[simp] theorem setOpt_script (v : OptParse) : (s.setOpt v).script = s.script := rfl
@[simp] theorem setOpt_obs (v : OptParse) : (s.setOpt v).obs = s.obs := rfl
@[simp] theorem setOpt_result (v : OptParse) : (s.setOpt v).result = s.result := rfl
@[simp] theorem setOpt_opt (v : OptParse) : (s.setOpt v).opt = v := rfl

end Sys2Proof.Machine
end

