-- ==== Sys2Proof/Laws/Ops.lean ====
section
/-! SUPPORT. What each shared operation does when its waits complete, and how the outcome of an
operation is read. -/

namespace Sys2Proof.Machine

/-! ### How an operation ends -/

@[simp] theorem Res.bind_ok {α β : Type} (a : α) (s : State) (k : α → State → Res β) :
    (Res.ok a s).bind k = k a s := rfl
@[simp] theorem Res.bind_stop {α β : Type} (s : State) (k : α → State → Res β) :
    (Res.stop s).bind k = .stop s := rfl
@[simp] theorem Res.bind_fault {α β : Type} (f : Fault) (k : α → State → Res β) :
    (Res.fault f).bind k = .fault f := rfl
@[simp] theorem Res.andThen_ok {β : Type} (u : Unit) (s : State) (k : State → Res β) :
    (Res.ok u s).andThen k = k s := rfl
@[simp] theorem Res.andThen_stop {β : Type} (s : State) (k : State → Res β) :
    (Res.stop s).andThen k = .stop s := rfl
@[simp] theorem Res.andThen_fault {β : Type} (f : Fault) (k : State → Res β) :
    (Res.fault f).andThen k = .fault f := rfl
@[simp] theorem done_andThen {β : Type} (s : State) (k : State → Res β) :
    (done s).andThen k = k s := rfl
@[simp] theorem done_bind {β : Type} (s : State) (k : Unit → State → Res β) :
    (done s).bind k = k () s := rfl
@[simp] theorem outcome_done (s : State) : (done s).outcome = .next s := rfl
@[simp] theorem outcome_ok {α : Type} (a : α) (s : State) : (Res.ok a s).outcome = .next s := rfl
@[simp] theorem outcome_stop {α : Type} (s : State) : (Res.stop s : Res α).outcome = .next s := rfl
@[simp] theorem outcome_fault {α : Type} (f : Fault) :
    (Res.fault f : Res α).outcome = .fault f := rfl

/-- Between transitions the mask is as it was before the sample. -/
@[simp] theorem sampleTicks_eq (s : State) : sampleTicks s = s := rfl

theorem outcome_next_iff {α : Type} (r : Res α) (t : State) :
    r.outcome = .next t ↔ (∃ a, r = .ok a t) ∨ r = .stop t := by
  cases r <;> simp [Res.outcome]

/-- An operation after another returns only after the first has returned. -/
theorem bind_eq_ok {α β : Type} {r : Res α} {k : α → State → Res β} {b : β} {t : State}
    (h : r.bind k = .ok b t) : ∃ a s, r = .ok a s ∧ k a s = .ok b t := by
  cases r with
  | ok a s => exact ⟨a, s, rfl, h⟩
  | stop s => simp at h
  | fault f => simp at h

theorem runMain_running {α : Type} {s : State} (h : s.run = .running) (f : State → Res α) :
    runMain s f = (f s).outcome := by simp [runMain, h]

theorem runMain_ended {α : Type} {s : State} (h : s.run ≠ .running) (f : State → Res α) :
    runMain s f = .fault .mainStopped := by simp [runMain, h]

theorem runMain_next_iff {α : Type} (s t : State) (f : State → Res α) :
    runMain s f = .next t ↔ s.run = .running ∧ (f s).outcome = .next t := by
  by_cases h : s.run = .running <;> simp [runMain, h]

/-! ### Waits -/

theorem waitsComplete_one (s : State) : waitsComplete s 1 ↔ pollsNeeded s ≤ s.par.pollCap := by
  simp [waitsComplete, pollsNeeded]

theorem waitsComplete_head {s : State} {n : Nat} (h : waitsComplete s (n + 1)) :
    pollsNeeded s ≤ s.par.pollCap := by simpa [pollsNeeded] using h 0 (by omega)

/-- The waits left after the first one. -/
theorem waitsComplete_tail {s t : State} {n : Nat} (h : waitsComplete s (n + 1))
    (hp : t.par = s.par) (hd : t.draws.polls = s.draws.polls)
    (hi : t.draws.pollPos = s.draws.pollPos + 1) : waitsComplete t n := by
  intro k hk
  have := h (k + 1) (by omega)
  rw [hp, hd, hi]
  simpa [Nat.add_assoc, Nat.add_comm 1 k] using this

theorem waitsComplete_mono {s : State} {m n : Nat} (h : waitsComplete s n) (hm : m ≤ n) :
    waitsComplete s m := fun k hk => h k (by omega)

/-- Everything a bounded wait does. -/
theorem boundedWait_eq (s : State) : boundedWait s =
    if pollsNeeded s ≤ s.par.pollCap then .ok () (usePoll s)
    else .stop (enterFatal (usePoll s) 7) := rfl

theorem boundedWait_ok {s : State} {n : Nat} (h : waitsComplete s (n + 1)) :
    boundedWait s = .ok () (usePoll s) := if_pos (waitsComplete_head h)

theorem boundedWait_eq_ok {s t : State} {u : Unit} (h : boundedWait s = .ok u t) :
    t = usePoll s := by
  rw [boundedWait_eq] at h
  split at h
  · injection h with _ h
    exact h.symm
  · cases h

theorem waitsComplete_usePoll {s : State} {n : Nat} (h : waitsComplete s (n + 1)) :
    waitsComplete (usePoll s) n := waitsComplete_tail h rfl rfl rfl

/-! ### The spaces of checksum operations -/

/-- A range that its space has reads as the space's bytes. -/
theorem spaceBytes_inside (sp : ByteSpace) {size off n : Nat} (m : Memory) (h : off + n ≤ size) :
    spaceBytes sp size m off n = Memory.readBytes m off n := by
  simp only [spaceBytes, Memory.readBytes, List.map_inj_left, List.mem_range]
  intro i hi
  exact if_pos (by omega)

@[simp] theorem frameAt_head (p : Params) (place : Nat) (f : RxFrame) (fs : List RxFrame) :
    frameAt p place (f :: fs) place = some f := if_pos rfl

@[simp] theorem streamBytes_length (s : State) (p n : Nat) : (streamBytes s p n).length = n := by
  simp [streamBytes]

/-- A stream read no longer than the frame at its offset is the frame's first bytes. -/
theorem streamBytes_frame {s : State} {p n : Nat} {f : RxFrame}
    (hf : frameAt s.par s.rxRdptr s.ring p = some f) (h : n ≤ frameLen f) :
    streamBytes s p n = f.bytes.take n := by
  have hl : frameLen f ≤ f.bytes.length := Nat.mod_le _ _
  refine List.ext_getElem (by simp; omega) fun k h1 h2 => ?_
  rw [streamBytes_length] at h1
  have h3 : k < f.bytes.length := by omega
  simp [streamBytes, streamByte, hf, List.getD, show k < frameLen f by omega, h3]

/-- A stream read outside the ring, where no frame stands, is controller memory's bytes. -/
theorem streamBytes_outside {s : State} {p n : Nat}
    (hf : frameAt s.par s.rxRdptr s.ring p = none) (hp : ringHas s.par p = false)
    (h : ∀ k < n, ringHas s.par (p + k) = false) :
    streamBytes s p n = spaceBytes .ctrl s.par.ctrlMemSize s.ctrl p n := by
  simp only [streamBytes, spaceBytes, List.map_inj_left, List.mem_range]
  intro k hk
  simp [streamByte, hf, hp, h k hk]

@[simp] theorem spaceBytes_length (sp : ByteSpace) (size : Nat) (m : Memory) (off n : Nat) :
    (spaceBytes sp size m off n).length = n := by simp [spaceBytes]

/-- A write that its space has room for is the space's write. -/
theorem writeInside_inside {size off : Nat} (m : Memory) {bs : List Byte}
    (h : off + bs.length ≤ size) : writeInside size m off bs = Memory.write m off bs := by
  rw [writeInside, List.take_of_length_le (by omega)]

/-- A range and a field that a space has, installed. -/
theorem ckInstallIn_inside (sp : ByteSpace) {size off n field : Nat} (m : Memory)
    (h : off + n ≤ size) (hf : field + 2 ≤ size) : ckInstallIn sp size m off n field =
      let c := ckOver [] (Memory.readBytes (Memory.write m field [0, 0]) off n)
      (Memory.write (Memory.write m field [0, 0]) field (bytes16 (ckField c)), c) := by
  rw [ckInstallIn, writeInside_inside m (bs := [0, 0]) hf, spaceBytes_inside sp _ h]
  dsimp only
  rw [writeInside_inside _ (by rw [bytes16_length]; exact hf)]

/-! ### The live datagram -/

theorem portsInside_iff (s : State) : portsInside s = true ↔ udpOff s + 4 ≤ s.liveLen.toNat := by
  simp only [portsInside, frameHas, Bool.and_eq_true, decide_eq_true_eq]
  unfold udpOff
  omega

/-- UDP data lies inside the frame, after a header that lies inside it. -/
theorem udpData_eq_some {s : State} {p len : Nat} (h : udpData s = some (p, len)) :
    frameHas s 15 = true ∧ frameHas s (udpOff s + 4) = true ∧ p = udpOff s + 8 ∧
      len = udpLen s - 8 ∧ 8 ≤ udpLen s ∧ p + len ≤ s.liveLen.toNat := by
  unfold udpData at h
  split at h
  swap
  · cases h
  rename_i hc
  simp only [Option.some.injEq, Prod.mk.injEq] at h
  simp only [frameHas, Bool.and_eq_true, decide_eq_true_eq] at hc ⊢
  omega

/-- A datagram whose UDP data lies inside the frame has its ports inside it. -/
theorem udpData_portsInside {s : State} {p len : Nat} (h : udpData s = some (p, len)) :
    portsInside s = true := by
  obtain ⟨h1, h2, -⟩ := udpData_eq_some h
  rw [portsInside, h1, h2]
  rfl

/-- A frame whose headers `IP.RECEIVE` accepts has room for them (R240). -/
theorem ipHeaderAccepted_room {proto : Byte} {s : State} (h : ipHeaderAccepted proto s = true) :
    42 ≤ s.liveLen.toNat := by
  simp only [ipHeaderAccepted, frameHas, Bool.and_eq_true, decide_eq_true_eq] at h
  unfold ipHeaderLen at h
  omega

/-- Everything `IP.REPLY` does. -/
theorem ipReply_eq (n : Word16) (s : State) : ipReply n s =
    if s.live ∧ s.ipView.isSome then
      if udpOff s + 4 ≤ s.liveLen.toNat then
        done (ipCreate (ethSource s) (ipSource s) (udpDestPort s) (udpSourcePort s) n s)
      else done s
    else .fault .hostProtocol := by
  simp only [ipReply, portsInside_iff]

/-! ### Operations whose waits complete -/

theorem linkAdvance_ok {s : State} (h : waitsComplete s 1) :
    linkAdvance s = .ok () ((usePoll s).setRing s.ring.tail) := by
  simp [linkAdvance, boundedWait_ok h, done, usePoll]

theorem linkReinit_ok {s : State} (h : waitsComplete s 1) :
    linkReinit s = .ok () ((usePoll s).setRing []) := by
  simp [linkReinit, boundedWait_ok h, done]

theorem linkStreamWrite_ok {s : State} {n : Nat} (h : waitsComplete s (n + 1)) (a : Nat)
    (bs : List Byte) :
    linkStreamWrite a bs s = .ok () ((usePoll s).setCtrl (Memory.write s.ctrl a bs)) := by
  simp [linkStreamWrite, boundedWait_ok h, done, usePoll]

/-- Everything `CK.ACCUMULATE` over a byte string does. -/
theorem ckAccumulate_eq (bs : List Byte) (s : State) : ckAccumulate bs s =
    if s.ck.init then .ok () (s.setCk (ckSum s.ck bs)) else .fault .ckUninit := rfl

/-- The stream read of a frame, its wait complete, on an accumulator that has been reset. -/
theorem linkStreamFrame_ok {s : State} {n : Nat} (h : waitsComplete s (n + 1))
    (hi : s.ck.init = true) (f : RxFrame) : linkStreamFrame f s =
      .ok (f.bytes.take (frameLen f)) ((usePoll s).setCk (ckSum s.ck (f.bytes.take (frameLen f)))) := by
  have hu : (usePoll s).ck = s.ck := rfl
  simp [linkStreamFrame, boundedWait_ok h, ckAccumulate_eq, hu, hi]

theorem ethTransmit_overflow {s : State} {slot : Slot} {len : Nat} (h : s.par.txSlotSize < len) :
    ethTransmit slot len s = .fault .slotOverflow := by simp [ethTransmit, Nat.not_le.2 h]

@[simp] theorem pollsNeeded_trackSlot (slot : Slot) (len : Nat) (s : State) :
    pollsNeeded (trackSlot slot len s) = pollsNeeded s := by cases slot <;> rfl

@[simp] theorem trackSlot_par (slot : Slot) (len : Nat) (s : State) :
    (trackSlot slot len s).par = s.par := by cases slot <;> rfl

@[simp] theorem trackSlot_ctrl (slot : Slot) (len : Nat) (s : State) :
    (trackSlot slot len s).ctrl = s.ctrl := by cases slot <;> rfl

/-- Everything a transmission of a frame that fits does. -/
theorem ethTransmit_eq {s : State} {slot : Slot} {len : Nat} (h : len ≤ s.par.txSlotSize) :
    ethTransmit slot len s =
      if pollsNeeded s ≤ s.par.pollCap then
        .ok () ((usePoll (trackSlot slot len s)).emit
          (.tx slot (Memory.readBytes s.ctrl (slotStart s.par slot) len) false))
      else .stop (enterFatal (usePoll (trackSlot slot len s)) 7) := by
  rw [ethTransmit, if_pos h, linkTransmit, boundedWait_eq, pollsNeeded_trackSlot, trackSlot_par]
  split
  · simp [done, usePoll]
  · simp

/-- A send whose length agrees, whose frame fits and whose waits complete. -/
theorem ipSend_ok {s : State} {slot : Slot} {payload : List Byte}
    (hl : (Memory.be16 s.tpl 38).toNat = 8 + payload.length)
    (hf : 42 + payload.length ≤ s.par.txSlotSize) (hw : waitsComplete s 2) :
    ipSend slot payload s = .ok ()
      ((usePoll (trackSlot slot (42 + payload.length) ((usePoll s).setCtrl
        (Memory.write s.ctrl (slotStart s.par slot) (Memory.readBytes s.tpl 0 42 ++ payload))))).emit
          (.tx slot (Memory.readBytes s.tpl 0 42 ++ payload) false)) := by
  have h2 := waitsComplete_usePoll hw
  rw [ipSend, if_pos hl, linkStreamWrite_ok hw, Res.andThen_ok,
    ethTransmit_eq (show _ ≤ ((usePoll s).setCtrl _).par.txSlotSize from hf)]
  have hp : pollsNeeded ((usePoll s).setCtrl
      (Memory.write s.ctrl (slotStart s.par slot) (Memory.readBytes s.tpl 0 42 ++ payload))) ≤
      s.par.pollCap := waitsComplete_head h2
  rw [if_pos (by simpa [usePoll] using hp)]
  have hr := readBytes_write_same s.ctrl (slotStart s.par slot)
    (Memory.readBytes s.tpl 0 42 ++ payload)
  rw [List.length_append, readBytes_length] at hr
  simp only [setCtrl_ctrl, usePoll, setDraws_par, setCtrl_par]
  rw [hr]

end Sys2Proof.Machine
end

