-- ==== Sys2Proof/Laws/Moves.lean ====
section
/-! SUPPORT. Everything a transition can do, said once: it is a path of small changes (`Atom`) with at
most one move of the DHCP state (`PhaseMove`), and may end the session (`Terminal`). A property that
each small change keeps is kept by every instruction, through `exec_moves`. -/

namespace Sys2Proof.Machine

/-- A small change inside a transition, with the guard under which the operations make it. -/
inductive Atom : State → State → Prop
  | draws (s : State) (d : Draws) : Atom s (s.setDraws d)
  | ck (s : State) (c : Ck) : Atom s (s.setCk c)
  | ring (s : State) (r : List RxFrame) (h : r.length ≤ s.ring.length) : Atom s (s.setRing r)
  | cursor (s : State) (v : Nat) : Atom s (s.setRxRdptr v)
  | result (s : State) (v : OpResult) : Atom s (s.setResult v)
  | opt (s : State) (v : OptParse) (h : v.stop ≤ s.liveLen.toNat) : Atom s (s.setOpt v)
  | view (s : State) (v : IpView) (h : 42 ≤ s.liveLen.toNat) : Atom s (s.setIpView (some v))
  | noFrame (s : State) : Atom s (endFrame s)
  | frame (s : State) (bs : List Byte) (h1 : 14 ≤ bs.length) (h2 : bs.length ≤ s.par.rxBufSize)
      (h3 : bs.length < 65536) : Atom s (takeFrame bs s)
  | buf (s : State) (a : Nat) (bs : List Byte)
      (h : paramsValid s.par = true → bs ≠ [] → a + bs.length ≤ s.par.rxBufSize) :
      Atom s (s.setBuf (Memory.write s.buf a bs))
  | tpl (s : State) (a : Nat) (bs : List Byte) (h : bs ≠ [] → a + bs.length ≤ Config.tplSize) :
      Atom s (s.setTpl (Memory.write s.tpl a bs))
  | append (s : State) (bs : List Byte) (total : Word32)
      (h1 : s.tftp.cursor + bs.length ≤ s.tftp.destLimit)
      (h2 : bs = [] ∨ s.tftp.destBase ≤ s.tftp.cursor) :
      Atom s ((s.setDest (Memory.write s.dest s.tftp.cursor bs)).setTftp
        { s.tftp with cursor := s.tftp.cursor + bs.length, total := total })
  | ctrlReg (s : State) (bs : List Byte) (h : bs.length ≤ s.par.txSlotSize) :
      Atom s (s.setCtrl (Memory.write s.ctrl s.par.txRegStart bs))
  | fresh (s : State) (len : Nat) (h : len ≤ s.par.txSlotSize) :
      Atom s (freshWait s (s.par.txPrioStart + len))
  | sendPrio (s : State) (bs : List Byte) (h : bs.length ≤ s.par.txSlotSize) :
      Atom s ((freshWait (s.setCtrl (Memory.write s.ctrl s.par.txPrioStart bs))
        (s.par.txPrioStart + bs.length)).emit (.tx .prio bs false))
  | backOff (s : State) (now : Nat) : Atom s (s.setRtx (backedOff s now))
  | acknowledge (s : State) : Atom s (ethAcknowledge s)
  | note (s : State) (e : Obs) (h1 : ∀ r, e ≠ .fatalNotify r)
      (h2 : ∀ b n, e ≠ .transferControl b n) : Atom s (s.emit e)
  | remember (s : State) (server offered : Word32) (h : s.dhcp.phase = .awaitingOffer) :
      Atom s (s.setDhcp { s.dhcp with server := server, offered := offered })
  | tftp (s : State) (v : Tftp) (h1 : v.clientPort = s.tftp.clientPort)
      (h2 : v.destBase = s.tftp.destBase) (h3 : v.destLimit = s.tftp.destLimit)
      (h4 : v.active = true → s.tftp.active = true) (h5 : v.cursor = s.tftp.cursor) :
      Atom s (s.setTftp v)

/-- The start of a session by a read request (R330). -/
inductive Session : State → State → Prop
  | start (s : State) (d : Draws) (port : Word16) (base limit : Nat) (hook verify : Bool)
      (h1 : s.dhcp.phase = .bound) (h2 : port ≠ 0) (h3 : port ≠ 68) (h4 : base ≤ limit) :
      Session s ((s.setDraws d).setTftp (freshSession s.tftp port base limit hook verify))

/-- The part of `ENGINE.BOOT` before its DHCP boot: the one place where the timer interrupt is enabled
(R386, R421). -/
inductive BootStart : State → State → Prop
  | start (s : State) (d : Draws) :
      BootStart s ((((s.setDraws d).setRing []).setRxRdptr s.par.rxStart).setIrqMask false)

/-- A move of the DHCP state (R37). -/
inductive PhaseMove : State → State → Prop
  | boot (s : State) (h : s.dhcp.phase = .init) : PhaseMove s (setPhase s .awaitingOffer)
  | offer (s : State) (h : s.dhcp.phase = .awaitingOffer) : PhaseMove s (setPhase s .requesting)
  | bind (s : State) (yi : Word32) (bcast : Option Word32) (h : s.dhcp.phase = .requesting)
      (hy : yi ≠ 0) : PhaseMove s (dhcpBind yi bcast s)

/-- The end of a session: a fatal condition, one raised in the middle of a priority send, or a transfer
of control (R393, R350). -/
inductive Terminal : State → State → Prop
  | fatal (s : State) (c : FatalCode) : Terminal s (enterFatal s (fatalByte c))
  | unsent (s : State) (bs : List Byte) (d : Draws) (c : FatalCode)
      (h : bs.length ≤ s.par.txSlotSize) :
      Terminal s (enterFatal ((freshWait (s.setCtrl (Memory.write s.ctrl s.par.txPrioStart bs))
        (s.par.txPrioStart + bs.length)).setDraws d) (fatalByte c))
  | transfer (s : State) :
      Terminal s ((s.setRun .transferred).emit (.transferControl s.tftp.destBase s.tftp.total))

/-- A path of small changes, with at most one move of the DHCP state, and none where the flag is
false. -/
inductive Path : Bool → State → State → Prop
  | refl (b : Bool) (s : State) : Path b s s
  | atom {b : Bool} {s t u : State} (p : Path b s t) (a : Atom t u) : Path b s u
  | phase {s t u : State} (p : Path false s t) (m : PhaseMove t u) : Path true s u

theorem Path.mono {b : Bool} {s t : State} (p : Path false s t) : Path b s t := by
  generalize hf : false = f at p
  induction p with
  | refl => exact .refl _ _
  | atom _ a ih => exact .atom (ih hf) a
  | phase => cases hf

theorem Path.single {b : Bool} {s t : State} (a : Atom s t) : Path b s t := .atom (.refl _ _) a

theorem Path.trans {b : Bool} {s t u : State} (p : Path false s t) (q : Path b t u) :
    Path b s u := by
  induction q with
  | refl => exact p.mono
  | atom _ a ih => exact .atom (ih p) a
  | phase _ m ih => exact .phase (ih p) m

theorem Path.then {b : Bool} {s t u : State} (p : Path b s t) (q : Path false t u) :
    Path b s u := by
  generalize hf : false = f at q
  induction q with
  | refl => exact p
  | atom _ a ih => exact .atom (ih p hf) a
  | phase => cases hf

/-- An operation from `s` ends on a path, or ends the session after one. -/
def Res.Moves {α : Type} (b : Bool) (s : State) : Res α → Prop
  | .ok _ t => Path b s t
  | .stop t => ∃ u, Path b s u ∧ Terminal u t
  | .fault _ => True

theorem Res.Moves.mono {α : Type} {b : Bool} {s : State} {r : Res α} (h : r.Moves false s) :
    r.Moves b s := by
  cases r with
  | ok a t => exact Path.mono h
  | stop t => obtain ⟨u, p, q⟩ := h; exact ⟨u, p.mono, q⟩
  | fault f => trivial

/-- A transition that ended the session is not RUNNING. -/
theorem Terminal.not_running {s t : State} (h : Terminal s t) : t.run ≠ .running := by
  cases h <;> simp [enterFatal, State.setRun, State.emit]

/-- An operation whose next state is RUNNING has returned. -/
theorem Res.Moves.ok_of_running {α : Type} {b : Bool} {s t : State} {r : Res α} (hm : r.Moves b s)
    (h : r.outcome = .next t) (ht : t.run = .running) : ∃ a, r = .ok a t := by
  cases r with
  | ok a u => simp at h; exact ⟨a, by rw [h]⟩
  | stop u =>
    simp at h
    subst h
    obtain ⟨v, -, q⟩ := hm
    exact absurd ht q.not_running
  | fault f => simp at h

/-- A path, then an operation. -/
theorem Res.Moves.after {α : Type} {b : Bool} {s t : State} {r : Res α} (p : Path false s t)
    (h : r.Moves b t) : r.Moves b s := by
  cases r with
  | ok a u => exact p.trans h
  | stop u => obtain ⟨v, q, m⟩ := h; exact ⟨v, p.trans q, m⟩
  | fault f => trivial

/-- An operation, then one that may move the DHCP state. -/
theorem Res.Moves.bind {α β : Type} {b : Bool} {s : State} {r : Res α} {k : α → State → Res β}
    (h : r.Moves false s) (hk : ∀ a t, r = .ok a t → (k a t).Moves b t) :
    (r.bind k).Moves b s := by
  cases r with
  | ok a t => exact (hk a t rfl).after h
  | stop t => obtain ⟨u, p, m⟩ := h; exact ⟨u, p.mono, m⟩
  | fault f => trivial

/-- An operation that may move the DHCP state, then one that may not. -/
theorem Res.Moves.bind_quiet {α β : Type} {b : Bool} {s : State} {r : Res α}
    {k : α → State → Res β} (h : r.Moves b s)
    (hk : ∀ a t, r = .ok a t → (k a t).Moves false t) : (r.bind k).Moves b s := by
  cases r with
  | ok a t =>
    have hq := hk a t rfl
    simp only [Res.bind_ok]
    cases hr : k a t with
    | ok c u => rw [hr] at hq; exact Path.then h hq
    | stop u =>
      rw [hr] at hq
      obtain ⟨v, q, m⟩ := hq
      exact ⟨v, Path.then h q, m⟩
    | fault f => trivial
  | stop t => exact h
  | fault f => trivial

theorem Res.Moves.andThen {β : Type} {b : Bool} {s : State} {r : Res Unit} {k : State → Res β}
    (h : r.Moves false s) (hk : ∀ t, r = .ok () t → (k t).Moves b t) :
    (r.andThen k).Moves b s := h.bind fun _ t ht => hk t ht

theorem done_moves {b : Bool} {s t : State} (p : Path b s t) : (done t).Moves b s := p

theorem raiseFatal_moves {α : Type} {b : Bool} {s t : State} (p : Path b s t) (c : FatalCode) :
    (raiseFatal c t : Res α).Moves b s := ⟨t, p, .fatal t c⟩

theorem transferControl_moves {α : Type} {b : Bool} {s t : State} (p : Path b s t) :
    (transferControl t : Res α).Moves b s := ⟨t, p, .transfer t⟩

/-! ### The shared operations -/

theorem boundedWait_moves (s : State) : (boundedWait s).Moves false s := by
  unfold boundedWait
  split
  · exact done_moves (.single (.draws _ _))
  · exact raiseFatal_moves (.single (.draws _ _)) _

theorem linkInit_moves (s : State) : (linkInit s).Moves false s :=
  (boundedWait_moves s).andThen fun _ _ => done_moves (.single (.ring _ _ (Nat.zero_le _)))

theorem linkReinit_moves (s : State) : (linkReinit s).Moves false s :=
  (boundedWait_moves s).andThen fun _ _ => done_moves (.single (.ring _ _ (Nat.zero_le _)))

theorem linkAdvance_moves (s : State) : (linkAdvance s).Moves false s :=
  (boundedWait_moves s).andThen fun t _ =>
    done_moves (.single (.ring _ _ (by simp)))

theorem linkReadFrame_moves (s : State) : (linkReadFrame s).Moves false s :=
  (boundedWait_moves s).andThen fun _ _ => Path.refl _ _

theorem ckAccumulate_moves (bs : List Byte) (s : State) : (ckAccumulate bs s).Moves false s := by
  unfold ckAccumulate
  split
  · exact Path.single (.ck _ _)
  · trivial

theorem linkStreamFrame_moves (f : RxFrame) (s : State) : (linkStreamFrame f s).Moves false s :=
  (boundedWait_moves s).andThen fun t _ =>
    (ckAccumulate_moves _ t).andThen fun _ _ => Path.refl _ _

theorem ethTransmit_moves (slot : Slot) (len : Nat) (s : State) :
    (ethTransmit slot len s).Moves false s := by
  by_cases h : len ≤ s.par.txSlotSize
  · have hp : Path false s (usePoll (trackSlot slot len s)) := by
      cases slot with
      | reg => exact .single (.draws _ _)
      | prio => exact .atom (.single (.fresh _ _ h)) (.draws _ _)
    rw [ethTransmit_eq h]
    split
    · exact Path.atom hp (.note _ _ (by simp) (by simp))
    · exact ⟨_, hp, .fatal _ .pollTimeout⟩
  · rw [ethTransmit, if_neg h]; trivial

theorem ipSend_moves (slot : Slot) (payload : List Byte) (s : State) :
    (ipSend slot payload s).Moves false s := by
  unfold ipSend
  split
  swap; · trivial
  have hlen : (Memory.readBytes s.tpl 0 42 ++ payload).length = 42 + payload.length := by simp
  unfold linkStreamWrite
  rw [boundedWait_eq]
  split
  swap; · exact ⟨_, .single (.draws _ _), .fatal _ .pollTimeout⟩
  simp only [Res.andThen_ok, done_andThen]
  by_cases hf : 42 + payload.length ≤ s.par.txSlotSize
  swap
  · rw [ethTransmit_overflow (show ((usePoll s).setCtrl _).par.txSlotSize < _ from Nat.not_le.1 hf)]
    trivial
  rw [ethTransmit_eq (show _ ≤ ((usePoll s).setCtrl _).par.txSlotSize from hf)]
  cases slot with
  | reg =>
    have hp : Path false s ((usePoll s).setCtrl
        (Memory.write s.ctrl s.par.txRegStart (Memory.readBytes s.tpl 0 42 ++ payload))) :=
      .atom (.single (.draws _ _)) (.ctrlReg (usePoll s) _ (by rw [hlen]; exact hf))
    split
    · exact Path.atom (Path.atom hp (.draws _ _)) (.note _ _ (by simp) (by simp))
    · exact ⟨_, Path.atom hp (.draws _ _), .fatal _ .pollTimeout⟩
  | prio =>
    have hr := readBytes_write_same s.ctrl s.par.txPrioStart (Memory.readBytes s.tpl 0 42 ++ payload)
    rw [hlen] at hr
    have hb : (Memory.readBytes s.tpl 0 42 ++ payload).length ≤ s.par.txSlotSize := by
      rw [hlen]; exact hf
    split
    · simp only [setCtrl_ctrl, usePoll, setDraws_par, setCtrl_par, slotStart, setDraws_ctrl]
      rw [hr]
      have hq := Path.atom (Path.single (b := false) (.sendPrio s _ hb))
        (.draws _ { s.draws with pollPos := s.draws.pollPos + 1 + 1 })
      rw [hlen] at hq
      exact hq
    · refine ⟨s, .refl _ _, ?_⟩
      have hq := Terminal.unsent s (Memory.readBytes s.tpl 0 42 ++ payload)
        { s.draws with pollPos := s.draws.pollPos + 1 + 1 } .pollTimeout hb
      rw [hlen] at hq
      exact hq

theorem ipCreate_path (mac : Mac) (ip : Word32) (a b n : Word16) (s : State) :
    Path false s (ipCreate mac ip a b n s) := by
  have h1 : (ethHeader s.par mac ++ ipHeader s.ip.host ip n ++ udpHeader a b n).length = 42 := by
    simp [ethHeader, ipHeader, udpHeader]
  unfold ipCreate
  dsimp only
  rw [ckInstallIn_inside .tpl _ (by decide) (by decide)]
  refine .atom (.atom (.atom (.single (.tpl s 0 _ fun _ => by rw [h1]; decide))
    (.tpl _ 24 [0, 0] fun _ => by decide)) (.tpl _ 24 (bytes16 _) fun _ => by simp; decide)) (.ck _ _)

theorem ckValidate_path (pseudo bs : List Byte) (s : State) :
    Path false s (ckValidate pseudo bs s).2 := .single (.ck _ _)

/-- A write to a host space keeps to the bytes the space has. -/
theorem hostWrite_path (sp : HostSpace) (off : Nat) (bs : List Byte) (s : State) :
    Path false s (hostWrite sp off bs s) := by
  have h : ∀ size, bs.take (size - off) ≠ [] → off + (bs.take (size - off)).length ≤ size := by
    intro size hne
    have := List.length_pos_of_ne_nil hne
    rw [List.length_take] at this ⊢
    omega
  cases sp with
  | buf => exact .single (.buf s off _ fun _ => h _)
  | tpl => exact .single (.tpl s off _ (h _))

theorem ckStream_moves (src : Nat) (d : StreamSpace) (off n : Nat) (s : State) :
    (ckStream src d off n s).Moves false s :=
  (boundedWait_moves s).andThen fun t _ => (ckAccumulate_moves _ _).after (hostWrite_path _ _ _ t)

theorem ckInstall_path (sp : HostSpace) (off n field : Nat) (s : State) :
    Path false s (ckInstall sp off n field s) := by
  have h1 := hostWrite_path sp field [0, 0] s
  cases sp with
  | buf => exact .atom (h1.trans (hostWrite_path .buf field (bytes16 _) _)) (.ck _ _)
  | tpl => exact .atom (h1.trans (hostWrite_path .tpl field (bytes16 _) _)) (.ck _ _)

/-! ### The handlers -/

theorem ethCheckRetransmit_moves (now : Nat) (s : State) :
    (ethCheckRetransmit now s).Moves false s := by
  unfold ethCheckRetransmit
  split
  · exact Path.refl _ _
  split
  · split
    · exact raiseFatal_moves (.refl _ _) _
    · refine (boundedWait_moves s).andThen fun t _ => ?_
      exact Path.atom (.atom (.single (.note _ _ (by simp) (by simp))) (.backOff _ now))
        (.draws _ _)
  · exact Path.refl _ _

theorem arpBuild_path (s : State) (h : 42 ≤ s.par.txSlotSize) : Path false s (arpBuild s) := by
  have hp : paramsValid s.par = true → 42 ≤ s.par.rxBufSize := fun hv => by
    simp only [paramsValid, Bool.and_eq_true, decide_eq_true_eq] at hv
    omega
  refine .atom (.atom (.single (.buf s 0 (bytes48 (Memory.mac s.buf 22) ++ bytes48 s.par.localMac)
    fun hv _ => ?_)) (.buf _ 20 _ fun hv _ => ?_)) (.ctrlReg _ _ ?_)
  · have := hp hv
    simp
    omega
  · have := hp hv
    simp
    omega
  · simpa using h

theorem arpHandleBy_moves (oper : Word16) (s : State) : (arpHandleBy oper s).Moves false s := by
  unfold arpHandleBy
  split
  · by_cases h : 42 ≤ s.par.txSlotSize
    · exact (ethTransmit_moves _ _ _).after (arpBuild_path s h)
    · rw [ethTransmit_overflow (show (arpBuild s).par.txSlotSize < 42 from Nat.not_le.1 h)]
      trivial
  · exact Path.refl _ _

theorem dhcpBroadcast_moves (m : List Byte) (s : State) : (dhcpBroadcast m s).Moves false s :=
  (ipSend_moves _ _ _).after (ipCreate_path _ _ _ _ _ s)

/-- What a send leaves alone, whether it completes or is cut short by a wait. -/
theorem ipSend_frame {slot : Slot} {m : List Byte} {s t : State}
    (h : (ipSend slot m s).outcome = .next t) :
    t.par = s.par ∧ t.buf = s.buf ∧ t.tpl = s.tpl ∧ t.ck = s.ck ∧ t.ip = s.ip ∧ t.dest = s.dest ∧
      t.dhcp = s.dhcp ∧ t.tftp = s.tftp ∧ t.ring = s.ring ∧ t.live = s.live ∧
      t.liveLen = s.liveLen ∧ t.ipView = s.ipView := by
  unfold ipSend at h
  split at h
  swap; · cases h
  unfold linkStreamWrite at h
  rw [boundedWait_eq] at h
  split at h
  swap; · cases h; simp [enterFatal, usePoll]
  simp only [Res.andThen_ok, done_andThen] at h
  by_cases hf : 42 + m.length ≤ s.par.txSlotSize
  swap
  · rw [ethTransmit_overflow (show ((usePoll s).setCtrl _).par.txSlotSize < _ from Nat.not_le.1 hf)]
      at h
    cases h
  rw [ethTransmit_eq (show _ ≤ ((usePoll s).setCtrl _).par.txSlotSize from hf)] at h
  split at h <;> cases h <;> cases slot <;> simp [trackSlot, freshWait, usePoll, enterFatal]

theorem dhcpBroadcast_dhcp {m : List Byte} {s t : State} (h : dhcpBroadcast m s = .ok () t) :
    t.dhcp = s.dhcp := by
  unfold dhcpBroadcast at h
  obtain ⟨-, -, -, -, -, -, hd, -⟩ := ipSend_frame (t := t) (by rw [h]; rfl)
  rw [hd]
  unfold ipCreate
  simp only [setCk_dhcp, setTpl_dhcp]

theorem dhcpBoot_moves (s : State) : (dhcpBoot s).Moves true s := by
  unfold dhcpBoot
  split
  swap; · trivial
  rename_i h
  generalize dhcpMessage s.par (discoverOptions s.par) = m
  refine (dhcpBroadcast_moves _ s).andThen fun t ht => ?_
  exact Path.phase (.refl _ _) (.boot t (by rw [dhcpBroadcast_dhcp ht]; exact h))

theorem offerSend_moves (m : List Byte) (server offered : Word32) (s : State)
    (h : s.dhcp.phase = .awaitingOffer) :
    ((dhcpBroadcast m (s.setDhcp { s.dhcp with server := server, offered := offered })).andThen
      fun s => done (setPhase s .requesting)).Moves true s := by
  refine Res.Moves.after (.single (.remember s server offered h)) ?_
  refine (dhcpBroadcast_moves m _).andThen fun t ht => ?_
  exact Path.phase (.refl _ _) (.offer t (by rw [dhcpBroadcast_dhcp ht]; exact h))

theorem dhcpAcceptOffer_moves (yi : Word32) (s : State) (h : s.dhcp.phase = .awaitingOffer) :
    (dhcpAcceptOffer yi s).Moves true s :=
  offerSend_moves (dhcpMessage s.par (requestOptions s.par yi (ipSource s))) (ipSource s) yi s h

theorem dhcpClassify_moves (type : Option Byte) (bcast : Option Word32) (yi : Word32) (s : State) :
    (dhcpClassify type bcast yi s).Moves true s := by
  unfold dhcpClassify
  split
  · rename_i h
    exact dhcpAcceptOffer_moves yi s h.1
  split
  · rename_i h
    exact done_moves (Path.phase (.refl _ _) (.bind s yi bcast h.1 h.2.2.2))
  split
  · rename_i h
    exact done_moves (Path.phase (.refl _ _) (.bind s yi bcast h.1 h.2.2.2))
  · exact done_moves (.refl _ _)

theorem dhcpReceiveBy_moves (f : OptParse → Option Byte) (s : State) :
    (dhcpReceiveBy f s).Moves true s := by
  unfold dhcpReceiveBy
  split
  · exact Path.refl _ _
  split
  · exact Path.refl _ _
  · dsimp only
    split
    · exact dhcpClassify_moves _ _ _ s
    · exact Path.refl _ _

/-- The iterator of a lone option unit lies inside the live frame. -/
theorem optCurrent_inside {s : State} {q : OptParse} (h : optCurrent s = some q) :
    q.stop ≤ s.liveLen.toNat := by
  unfold optCurrent at h
  split at h
  · split at h
    · cases h
      rename_i hf
      simpa [frameHas] using hf
    · cases h
  · cases hd : udpData s with
    | none => rw [hd] at h; cases h
    | some d =>
      rw [hd] at h
      cases h
      exact (udpData_eq_some (p := d.1) (len := d.2) hd).2.2.2.2.2

@[simp] theorem optPass_stop (buf : Memory) (c : Byte) (q : OptParse) :
    (optPass buf c q).stop = q.stop := by
  simp only [optPass, apply_ite OptParse.stop, ite_self]

@[simp] theorem optNext_stop (buf : Memory) (q : OptParse) : (optNext buf q).stop = q.stop := by
  simp only [optNext, apply_ite OptParse.stop, optPass_stop, ite_self]

@[simp] theorem optRun_stop (buf : Memory) (n : Nat) (q : OptParse) :
    (optRun buf n q).stop = q.stop := by
  induction n generalizing q with
  | zero => rfl
  | succ n ih =>
    simp only [optRun]
    split
    · rw [ih, optNext_stop]
    · rfl

theorem optUnit_path (c : Byte) (s : State) : Path false s (optUnit c s) := by
  unfold optUnit
  split
  · exact .refl _ _
  · have h := optCurrent_inside ‹_›
    split
    · exact .single (.opt _ _ h)
    · split
      · exact .single (.opt _ _ h)
      · exact .single (.opt _ _ (by rw [optPass_stop]; exact h))

theorem ipReply_moves (n : Word16) (s : State) : (ipReply n s).Moves false s := by
  rw [ipReply_eq]
  split
  · split
    · exact ipCreate_path _ _ _ _ _ s
    · exact Path.refl _ _
  · trivial

theorem sendAck_moves (block : Word16) (s : State) : (sendAck block s).Moves false s :=
  (ipReply_moves 12 s).andThen fun _ _ => ipSend_moves _ _ _

theorem checkSignature_moves {α : Type} (s : State) : (checkSignature s : Res α).Moves false s := by
  unfold checkSignature
  split
  · split
    · exact transferControl_moves (.refl _ _)
    · exact raiseFatal_moves (.refl _ _) _
  · trivial

theorem tftpComplete_moves (s : State) : (tftpComplete s).Moves false s := by
  have h1 : Path false s ((ethAcknowledge s).setTftp
      { (ethAcknowledge s).tftp with active := false }) :=
    .atom (.single (.acknowledge s)) (.tftp _ _ rfl rfl rfl (by simp) rfl)
  unfold tftpComplete
  dsimp only
  split
  · exact (checkSignature_moves _).after h1
  · have h2 := Path.atom (Path.atom h1 (.note _ (.completionHook s.tftp.total) (by simp) (by simp)))
      (.draws _ { s.draws with transferPos := s.draws.transferPos + 1 })
    split
    · exact transferControl_moves h2
    · exact h2

theorem deliver_moves (block : Word16) (bs : List Byte) (s : State) :
    (deliver block bs s).Moves false s := by
  unfold deliver
  split
  · exact Path.atom (.single (.note _ _ (by simp) (by simp)))
      (.tftp _ _ rfl rfl rfl (fun h => h) rfl)
  · unfold deliverFlat
    split
    · rename_i h
      exact Path.single (.append s bs _ h.1 h.2)
    · trivial

theorem newBlock_moves (sport block : Word16) (bs : List Byte) (s : State) :
    (newBlock sport block bs s).Moves false s := by
  unfold newBlock
  have h1 : Path false s (latchPort sport s) := by
    unfold latchPort
    split
    · exact .refl _ _
    · exact .single (.tftp _ _ rfl rfl rfl (fun h => h) rfl)
  refine Res.Moves.after h1 ((sendAck_moves _ _).andThen fun t _ => ?_)
  refine (deliver_moves _ _ _).andThen fun u _ => ?_
  have h2 : Path false u (expectNext u) :=
    .single (.tftp _ _ rfl rfl rfl (fun h => h) rfl)
  split
  · exact (tftpComplete_moves _).after h2
  · exact h2

theorem tftpReceiveBy_moves (f : Nat → Word16) (s : State) : (tftpReceiveBy f s).Moves false s := by
  unfold tftpReceiveBy
  split
  · exact Path.refl _ _
  split
  · exact Path.refl _ _
  unfold tftpByOpcode
  split
  · exact raiseFatal_moves (.refl _ _) _
  split
  · exact raiseFatal_moves (.refl _ _) _
  unfold tftpDataAt
  split
  · exact Path.refl _ _
  dsimp only
  split
  · exact raiseFatal_moves (.refl _ _) _
  split
  · exact newBlock_moves _ _ _ s
  split
  · exact sendAck_moves _ s
  · exact raiseFatal_moves (.refl _ _) _

theorem legalPort_ne_zero (w : Word16) : legalPort w ≠ 0 := by
  unfold legalPort
  split
  · decide
  · intro h; simp_all

theorem legalPort_ne_68 (w : Word16) : legalPort w ≠ 68 := by
  unfold legalPort
  split
  · decide
  · intro h; simp_all

/-- A read request that is not turned away starts a session, then sends, and writes no destination
byte. -/
theorem tftpReadRequest_moves {f : List Byte} {b l : Nat} {h v : Bool} {s t : State}
    (ht : (tftpReadRequest f b l h v s).outcome = .next t) :
    s.run = .running ∧ t.dest = s.dest ∧
      ∃ u, Session s u ∧ (Path false u t ∨ ∃ w, Path false u w ∧ Terminal w t) := by
  unfold tftpReadRequest at ht
  split at ht
  swap; · cases ht
  rename_i hr
  simp only [readRequestAllowed, Bool.and_eq_true, decide_eq_true_eq] at hr
  generalize rrqMessage s.par f = m at ht
  dsimp only at ht
  refine ⟨hr.1.1.1.1.1, ?_, _, .start s (usePort (sampleTicks s)).draws (portDraw s) b l h v
    hr.1.1.1.1.2 (legalPort_ne_zero _) (legalPort_ne_68 _) hr.1.2, ?_⟩
  · obtain ⟨-, -, -, -, -, hd, -⟩ := ipSend_frame ht
    rw [hd]
    unfold ipCreate
    simp [usePort, sampleTicks]
  · have hm := (ipSend_moves .prio m _).after (ipCreate_path s.ip.serverMac s.ip.server (portDraw s)
      Config.tftpServerPort (lengthField (8 + m.length))
      ((usePort (sampleTicks s)).setTftp (freshSession s.tftp (portDraw s) b l h v)))
    rcases (outcome_next_iff _ t).1 ht with ⟨a, hk⟩ | hk
    · left
      exact (show Res.Moves false _ (Res.ok a t) from hk ▸ hm)
    · right
      exact (show Res.Moves false _ (Res.stop t : Res Unit) from hk ▸ hm)

theorem demuxBy_moves (dport : Word16) (s : State) : (demuxBy dport s).Moves true s := by
  unfold demuxBy
  split
  · exact (tftpReceiveBy_moves _ s).mono
  split
  · exact dhcpReceiveBy_moves _ s
  · exact Path.refl _ _

theorem udpDemux_moves (s : State) : (udpDemux s).Moves true s := by
  unfold udpDemux
  split
  · exact demuxBy_moves _ s
  · exact Path.refl _ _

theorem udpDemuxAs_moves (dport : Word16) (s : State) : (udpDemuxAs dport s).Moves true s := by
  unfold udpDemuxAs
  split
  · exact demuxBy_moves _ s
  · exact Path.refl _ _

theorem udpChecksumCheck_path (s : State) : Path false s (udpChecksumCheck s).2 := by
  unfold udpChecksumCheck
  split
  · exact .refl _ _
  · exact ckValidate_path _ _ s

theorem udpChecksumCheck_liveLen (s : State) :
    (udpChecksumCheck s).2.liveLen = s.liveLen := by
  unfold udpChecksumCheck
  split <;> rfl

theorem ipReceiveBy_moves (proto : Byte) (s : State) : (ipReceiveBy proto s).Moves true s := by
  unfold ipReceiveBy
  split
  swap; · exact Path.refl _ _
  have hr := ipHeaderAccepted_room ‹_›
  dsimp only
  have h1 := ckValidate_path [] (Memory.readBytes s.buf 14 (ipHeaderLen s)) s
  split
  · split
    · exact (udpDemux_moves _).after ((h1.trans (udpChecksumCheck_path _)).atom
        (.view _ _ (by rw [udpChecksumCheck_liveLen]; exact hr)))
    · exact (h1.trans (udpChecksumCheck_path _)).mono
  · exact h1.mono

theorem dispatchBy_moves (et : Word16) (s : State) : (dispatchBy et s).Moves true s := by
  unfold dispatchBy
  split
  · exact Path.refl _ _
  split
  · exact Path.refl _ _
  split
  · exact (arpHandleBy_moves _ s).mono
  split
  · exact ipReceiveBy_moves _ s
  · exact Path.refl _ _

theorem linkRecover_moves (s : State) : (linkRecover s).Moves false s :=
  (linkReinit_moves s).andThen fun _ _ => Path.atom (.single (.cursor _ _)) (.noFrame _)

theorem ethReceive_moves (s : State) : (ethReceive s).Moves false s := by
  refine (linkReadFrame_moves s).bind fun f t _ => ?_
  split
  · exact (linkRecover_moves t).bind fun _ u _ => Path.refl _ _
  split
  · exact Path.refl _ _
  · rename_i h
    simp only [not_or, Nat.not_lt] at h
    refine (linkStreamFrame_moves f t).bind fun bs u hu => ?_
    have hb : bs = f.bytes.take (frameLen f) ∧ u.par = t.par := by
      simp only [linkStreamFrame, boundedWait_eq] at hu
      split at hu
      · simp only [Res.andThen_ok, ckAccumulate_eq] at hu
        split at hu
        · cases hu; exact ⟨rfl, rfl⟩
        · cases hu
      · cases hu
    have hl : bs.length = frameLen f := by
      rw [hb.1, List.length_take, frameLen]
      exact Nat.min_eq_left (Nat.mod_le _ _)
    refine Path.single (.frame u bs ?_ ?_ ?_)
    · omega
    · rw [hb.2]; omega
    · rw [hl]; exact Nat.mod_lt _ (by decide)

theorem ethAdvance_moves (next : Nat) (s : State) : (ethAdvance next s).Moves false s :=
  (linkAdvance_moves s).andThen fun _ _ => Path.single (.cursor _ _)

theorem ethCycle_moves (s : State) : (ethCycle s).Moves true s := by
  unfold ethCycle
  rw [sampleTicks_eq]
  dsimp only
  split
  · refine (ethReceive_moves _).bind fun h t _ => ?_
    cases h with
    | none => exact Path.refl _ _
    | some h =>
      refine Res.Moves.bind_quiet ?_ fun _ u _ =>
        (ethAdvance_moves _ u).andThen fun _ _ => Path.single (.noFrame _)
      split
      · exact dispatchBy_moves _ t
      · exact Path.refl _ _
  · exact (ethCheckRetransmit_moves _ _).mono

/-- A boot that is not turned away brings up the link and boots the DHCP client, or ends in the link's
wait. -/
theorem engineBoot_moves {s t : State} (h : (engineBoot s).outcome = .next t) :
    (∃ u, BootStart s u ∧ (Path true u t ∨ ∃ w, Path true u w ∧ Terminal w t)) ∨
      ∃ u, Path true s u ∧ Terminal u t := by
  unfold engineBoot at h
  split at h
  swap; · cases h
  unfold linkInit at h
  rw [boundedWait_eq] at h
  split at h
  · left
    refine ⟨_, .start s { s.draws with pollPos := s.draws.pollPos + 1 }, ?_⟩
    have hm := dhcpBoot_moves ((((usePoll s).setRing []).setRxRdptr s.par.rxStart).setIrqMask false)
    rcases (outcome_next_iff _ t).1 h with ⟨a, hk⟩ | hk
    · exact .inl (show Res.Moves true _ (Res.ok a t) from hk ▸ hm)
    · exact .inr (show Res.Moves true _ (Res.stop t : Res Unit) from hk ▸ hm)
  · cases h
    exact .inr ⟨_, .single (.draws _ _), .fatal _ .pollTimeout⟩

/-! ### Every instruction -/

/-- What a next state is: the timer's, the end of a read request, the end of a boot whose link came up,
or the end of another transition of MAIN. -/
def Reached (i : Instr) (s t : State) : Prop :=
  (i = .irqTick ∧ t = takeTick s) ∨
    (s.run = .running ∧ t.dest = s.dest ∧
      ∃ u, Session s u ∧ (Path false u t ∨ ∃ w, Path false u w ∧ Terminal w t)) ∨
    (i = .engineBoot ∧ s.run = .running ∧
      ∃ u, BootStart s u ∧ (Path true u t ∨ ∃ w, Path true u w ∧ Terminal w t)) ∨
    (s.run = .running ∧ (Path true s t ∨ ∃ u, Path true s u ∧ Terminal u t))

theorem reached_of_runMain {α : Type} {i : Instr} {s t : State} {f : State → Res α}
    (hf : (f s).Moves true s) (h : runMain s f = .next t) : Reached i s t := by
  obtain ⟨hr, ho⟩ := (runMain_next_iff s t f).1 h
  refine .inr (.inr (.inr ⟨hr, ?_⟩))
  rcases (outcome_next_iff _ t).1 ho with ⟨a, hk⟩ | hk
  · rw [hk] at hf; exact .inl hf
  · rw [hk] at hf; exact .inr hf

/-- Everything an instruction can do. -/
theorem exec_moves {i : Instr} {s t : State} (h : exec i s = .next t) : Reached i s t := by
  cases i
  case irqTick => cases h; exact .inl ⟨rfl, rfl⟩
  case fatal c =>
    obtain ⟨hr, ho⟩ : _ ∧ _ := by simpa only [exec, execFatal, runMain_next_iff] using h
    split at ho
    · cases ho
      exact .inr (.inr (.inr ⟨hr, .inr ⟨s, .refl _ _, .fatal _ _⟩⟩))
    · cases ho
      exact .inr (.inr (.inr ⟨hr, .inl (.refl _ _)⟩))
  case tftpReadRequest f b l hk v => exact .inr (.inl (tftpReadRequest_moves h))
  case ckAccumulate sp off n =>
    exact reached_of_runMain (f := ckAccumulateRange sp off n) ((ckAccumulate_moves _ s).mono) h
  case ckFold =>
    refine reached_of_runMain (f := fun s => (ckFoldValue s).bind fun w s =>
      done (s.setResult (.word w))) ?_ h
    unfold ckFoldValue
    split
    · exact Path.single (.result _ _)
    · trivial
  case ckValidate sp off n ps =>
    exact reached_of_runMain (f := fun s =>
      let r := ckValidate ((ps.map bytes96).getD []) (hostBytes s sp off n) s
      done (r.2.setResult (.flag r.1)))
      (done_moves (Path.atom (ckValidate_path _ _ s).mono (.result _ _))) h
  case dhcpParseOptions =>
    obtain ⟨hr, ho⟩ : _ ∧ _ := by simpa only [exec, execDhcpParseOptions, runMain_next_iff] using h
    split at ho
    · cases ho
      exact .inr (.inr (.inr ⟨hr, .inl (.refl _ _)⟩))
    · cases ho
      have hd := (udpData_eq_some ‹_›).2.2.2.2.2
      exact .inr (.inr (.inr ⟨hr, .inl (Path.atom (.single (.opt _ _
        (by rw [parseOptions, optRun_stop]; exact hd))) (.result _ _))⟩))
  case ckReset =>
    exact reached_of_runMain (f := fun s => done (ckReset s))
      (done_moves (.single (.ck _ _))) h
  case ckAccumulateStream a b c d =>
    exact reached_of_runMain (f := ckStream a b c d)
      ((ckStream_moves a b c d s).mono) h
  case ckInstall a b c d =>
    exact reached_of_runMain (f := fun s => done (ckInstall a b c d s))
      (done_moves (ckInstall_path a b c d s).mono) h
  case ethCycle =>
    exact reached_of_runMain (f := ethCycle)
      (ethCycle_moves s) h
  case ethPoll =>
    exact reached_of_runMain (f := fun s => done (s.setResult (.flag (ethPoll s))))
      (done_moves (.single (.result _ _))) h
  case ethReceive =>
    exact reached_of_runMain (f := fun s => (ethReceive s).bind fun h s => done (s.setResult 
      (match h with | some h => .header h | none => .recovered)))
      ((ethReceive_moves s).bind fun _ t _ => done_moves (.single (.result _ _))) h
  case ethDispatch =>
    exact reached_of_runMain (f := ethDispatch)
      (dispatchBy_moves _ s) h
  case ethAdvance n =>
    exact reached_of_runMain (f := ethAdvance n)
      ((ethAdvance_moves n s).mono) h
  case ethTransmit a b =>
    exact reached_of_runMain (f := ethTransmit a b)
      ((ethTransmit_moves a b s).mono) h
  case ethCheckRetransmit n =>
    exact reached_of_runMain (f := ethCheckRetransmit n)
      ((ethCheckRetransmit_moves n s).mono) h
  case ethAcknowledge =>
    exact reached_of_runMain (f := fun s => done (ethAcknowledge s))
      (done_moves (.single (.acknowledge _))) h
  case arpHandleRequest =>
    exact reached_of_runMain (f := arpHandle)
      ((arpHandleBy_moves _ s).mono) h
  case ipReceive =>
    exact reached_of_runMain (f := ipReceive)
      (ipReceiveBy_moves _ s) h
  case udpDemux =>
    exact reached_of_runMain (f := udpDemux)
      (udpDemux_moves s) h
  case ipCreate a b c d e =>
    exact reached_of_runMain (f := fun s => done (ipCreate a b c d e s))
      (done_moves (ipCreate_path a b c d e s).mono) h
  case ipReply n =>
    exact reached_of_runMain (f := ipReply n)
      ((ipReply_moves n s).mono) h
  case ipSend a b =>
    exact reached_of_runMain (f := ipSend a b)
      ((ipSend_moves a b s).mono) h
  case dhcpBoot =>
    exact reached_of_runMain (f := dhcpBoot)
      (dhcpBoot_moves s) h
  case dhcpReceive =>
    exact reached_of_runMain (f := dhcpReceive)
      (dhcpReceiveBy_moves _ s) h
  case tftpReceive =>
    exact reached_of_runMain (f := tftpReceive)
      ((tftpReceiveBy_moves _ s).mono) h
  case tftpComplete =>
    exact reached_of_runMain (f := tftpComplete)
      ((tftpComplete_moves s).mono) h
  case engineBoot =>
    obtain ⟨hr, ho⟩ := (runMain_next_iff s t engineBoot).1 h
    rcases engineBoot_moves ho with hb | hb
    · exact .inr (.inr (.inl ⟨rfl, hr, hb⟩))
    · exact .inr (.inr (.inr ⟨hr, .inr hb⟩))
  case ethArp =>
    exact reached_of_runMain (f := dispatchBy 0x0806)
      (dispatchBy_moves _ s) h
  case ethIpv4 =>
    exact reached_of_runMain (f := dispatchBy 0x0800)
      (dispatchBy_moves _ s) h
  case ethUnknown et =>
    exact reached_of_runMain (f := dispatchBy et)
      (dispatchBy_moves _ s) h
  case arpRequest =>
    exact reached_of_runMain (f := arpHandleBy 1)
      ((arpHandleBy_moves _ s).mono) h
  case arpReply =>
    exact reached_of_runMain (f := arpHandleBy 2)
      ((arpHandleBy_moves _ s).mono) h
  case ipv4Udp =>
    exact reached_of_runMain (f := ipReceiveBy 17)
      (ipReceiveBy_moves _ s) h
  case udpDhcpClient =>
    exact reached_of_runMain (f := udpDemuxAs 68)
      (udpDemuxAs_moves _ s) h
  case udpTftpClient p =>
    exact reached_of_runMain (f := udpDemuxAs p)
      (udpDemuxAs_moves _ s) h
  case udpDhcpServer =>
    exact reached_of_runMain (f := udpDemuxAs 67)
      (udpDemuxAs_moves _ s) h
  case udpTftpServer =>
    exact reached_of_runMain (f := udpDemuxAs 69)
      (udpDemuxAs_moves _ s) h
  case dhcpDiscover =>
    exact reached_of_runMain (f := dhcpReceiveAs (some 1))
      (dhcpReceiveBy_moves _ s) h
  case dhcpOffer =>
    exact reached_of_runMain (f := dhcpReceiveAs (some 2))
      (dhcpReceiveBy_moves _ s) h
  case dhcpRequest =>
    exact reached_of_runMain (f := dhcpReceiveAs (some 3))
      (dhcpReceiveBy_moves _ s) h
  case dhcpDecline =>
    exact reached_of_runMain (f := dhcpReceiveAs (some 4))
      (dhcpReceiveBy_moves _ s) h
  case dhcpAck =>
    exact reached_of_runMain (f := dhcpReceiveAs (some 5))
      (dhcpReceiveBy_moves _ s) h
  case dhcpNak =>
    exact reached_of_runMain (f := dhcpReceiveAs (some 6))
      (dhcpReceiveBy_moves _ s) h
  case dhcpRelease =>
    exact reached_of_runMain (f := dhcpReceiveAs (some 7))
      (dhcpReceiveBy_moves _ s) h
  case dhcpInform =>
    exact reached_of_runMain (f := dhcpReceiveAs (some 8))
      (dhcpReceiveBy_moves _ s) h
  case dhcpBootpReply =>
    exact reached_of_runMain (f := dhcpReceiveAs none)
      (dhcpReceiveBy_moves _ s) h
  case optPad =>
    exact reached_of_runMain (f := fun s => done (optUnit 0 s))
      (done_moves (optUnit_path _ s).mono) h
  case optHostname =>
    exact reached_of_runMain (f := fun s => done (optUnit 12 s))
      (done_moves (optUnit_path _ s).mono) h
  case optBroadcastAddress =>
    exact reached_of_runMain (f := fun s => done (optUnit 28 s))
      (done_moves (optUnit_path _ s).mono) h
  case optRequestedIp =>
    exact reached_of_runMain (f := fun s => done (optUnit 50 s))
      (done_moves (optUnit_path _ s).mono) h
  case optLeaseTime =>
    exact reached_of_runMain (f := fun s => done (optUnit 51 s))
      (done_moves (optUnit_path _ s).mono) h
  case optMessageType =>
    exact reached_of_runMain (f := fun s => done (optUnit 53 s))
      (done_moves (optUnit_path _ s).mono) h
  case optServerIdentifier =>
    exact reached_of_runMain (f := fun s => done (optUnit 54 s))
      (done_moves (optUnit_path _ s).mono) h
  case optParameterRequestList =>
    exact reached_of_runMain (f := fun s => done (optUnit 55 s))
      (done_moves (optUnit_path _ s).mono) h
  case optMaxMessageSize =>
    exact reached_of_runMain (f := fun s => done (optUnit 57 s))
      (done_moves (optUnit_path _ s).mono) h
  case optClientIdentifier =>
    exact reached_of_runMain (f := fun s => done (optUnit 61 s))
      (done_moves (optUnit_path _ s).mono) h
  case optEnd =>
    exact reached_of_runMain (f := fun s => done (optUnit 255 s))
      (done_moves (optUnit_path _ s).mono) h
  case optUnknown c =>
    exact reached_of_runMain (f := fun s => done (optUnit c s))
      (done_moves (optUnit_path _ s).mono) h
  case tftpRrq =>
    exact reached_of_runMain (f := tftpReceiveAs 1)
      ((tftpReceiveBy_moves _ s).mono) h
  case tftpData =>
    exact reached_of_runMain (f := tftpReceiveAs 3)
      ((tftpReceiveBy_moves _ s).mono) h
  case tftpAck =>
    exact reached_of_runMain (f := tftpReceiveAs 4)
      ((tftpReceiveBy_moves _ s).mono) h
  case tftpError =>
    exact reached_of_runMain (f := tftpReceiveAs 5)
      ((tftpReceiveBy_moves _ s).mono) h
  case tftpOther op =>
    exact reached_of_runMain (f := tftpReceiveAs op)
      ((tftpReceiveBy_moves _ s).mono) h

end Sys2Proof.Machine
end

