-- ==== Sys2Proof/Laws/PerInstr.lean ====
section
/-! SUPPORT. The family `CodeOfRow`: the encoder writes each instruction's row of
spec/opcode_table.json. The codes below are the table's `match` values, in the table's formats. -/

namespace Sys2Proof.Laws

open Machine (bytes16)

/-- The format and the code bytes of an instruction's row of the opcode table. -/
def rowCode : Instr → Format × List Byte
  | .ckReset => (.op, [0x10])
  | .ckAccumulate _ _ _ => (.op, [0x11])
  | .ckAccumulateStream _ _ _ _ => (.op, [0x12])
  | .ckFold => (.op, [0x13])
  | .ckValidate _ _ _ _ => (.op, [0x14])
  | .ckInstall _ _ _ _ => (.op, [0x15])
  | .ethCycle => (.op, [0x20])
  | .ethPoll => (.op, [0x21])
  | .ethReceive => (.op, [0x22])
  | .ethDispatch => (.op, [0x23])
  | .ethAdvance _ => (.op, [0x24])
  | .ethTransmit _ _ => (.op, [0x25])
  | .ethCheckRetransmit _ => (.op, [0x26])
  | .ethAcknowledge => (.op, [0x27])
  | .arpHandleRequest => (.op, [0x30])
  | .ipReceive => (.op, [0x40])
  | .udpDemux => (.op, [0x41])
  | .ipCreate _ _ _ _ _ => (.op, [0x42])
  | .ipReply _ => (.op, [0x43])
  | .ipSend _ _ => (.op, [0x44])
  | .dhcpBoot => (.op, [0x50])
  | .dhcpReceive => (.op, [0x51])
  | .dhcpParseOptions => (.op, [0x52])
  | .tftpReadRequest _ _ _ _ _ => (.op, [0x60])
  | .tftpReceive => (.op, [0x61])
  | .tftpComplete => (.op, [0x62])
  | .irqTick => (.op, [0x70])
  | .fatal _ => (.op, [0x71])
  | .engineBoot => (.op, [0x72])
  | .ethArp => (.eth, [0x08, 0x06])
  | .ethIpv4 => (.eth, [0x08, 0x00])
  | .ethUnknown ethertype => (.eth, bytes16 ethertype)
  | .arpRequest => (.arp, [0x00, 0x01])
  | .arpReply => (.arp, [0x00, 0x02])
  | .ipv4Udp => (.ipv4, [17])
  | .udpDhcpClient => (.udp, [0x00, 0x44])
  | .udpTftpClient port => (.udp, bytes16 port)
  | .udpDhcpServer => (.udp, [0x00, 0x43])
  | .udpTftpServer => (.udp, [0x00, 0x45])
  | .dhcpDiscover => (.dhcpOpt, [53, 1, 1])
  | .dhcpOffer => (.dhcpOpt, [53, 1, 2])
  | .dhcpRequest => (.dhcpOpt, [53, 1, 3])
  | .dhcpDecline => (.dhcpOpt, [53, 1, 4])
  | .dhcpAck => (.dhcpOpt, [53, 1, 5])
  | .dhcpNak => (.dhcpOpt, [53, 1, 6])
  | .dhcpRelease => (.dhcpOpt, [53, 1, 7])
  | .dhcpInform => (.dhcpOpt, [53, 1, 8])
  | .dhcpBootpReply => (.dhcp, [])
  | .optPad => (.dhcpOpt, [0])
  | .optHostname => (.dhcpOpt, [12])
  | .optBroadcastAddress => (.dhcpOpt, [28])
  | .optRequestedIp => (.dhcpOpt, [50])
  | .optLeaseTime => (.dhcpOpt, [51])
  | .optMessageType => (.dhcpOpt, [53])
  | .optServerIdentifier => (.dhcpOpt, [54])
  | .optParameterRequestList => (.dhcpOpt, [55])
  | .optMaxMessageSize => (.dhcpOpt, [57])
  | .optClientIdentifier => (.dhcpOpt, [61])
  | .optEnd => (.dhcpOpt, [255])
  | .optUnknown code => (.dhcpOpt, [code])
  | .tftpRrq => (.tftp, [0x00, 0x01])
  | .tftpData => (.tftp, [0x00, 0x03])
  | .tftpAck => (.tftp, [0x00, 0x04])
  | .tftpError => (.tftp, [0x00, 0x05])
  | .tftpOther opcode => (.tftp, bytes16 opcode)

/-- An instruction's code word starts with its row's code, in its row's format; operands follow. -/
def CodeOfRow.Statement (i : Instr) : Prop :=
  ∃ operands, encode i = ⟨(rowCode i).1, (rowCode i).2 ++ operands⟩

theorem CodeOfRow.ckReset : CodeOfRow.Statement (.ckReset) := ⟨_, rfl⟩
theorem CodeOfRow.ckAccumulate : ∀ space off n, CodeOfRow.Statement (.ckAccumulate space off n) := fun _ _ _ => ⟨_, rfl⟩
theorem CodeOfRow.ckAccumulateStream :
    ∀ src dst off n, CodeOfRow.Statement (.ckAccumulateStream src dst off n) :=
  fun _ dst _ _ => by cases dst; exact ⟨_, rfl⟩
theorem CodeOfRow.ckFold : CodeOfRow.Statement (.ckFold) := ⟨_, rfl⟩
theorem CodeOfRow.ckValidate : ∀ space off n pseudo, CodeOfRow.Statement (.ckValidate space off n pseudo) := fun _ _ _ _ => ⟨_, rfl⟩
theorem CodeOfRow.ckInstall : ∀ space off n field, CodeOfRow.Statement (.ckInstall space off n field) := fun _ _ _ _ => ⟨_, rfl⟩
theorem CodeOfRow.ethCycle : CodeOfRow.Statement (.ethCycle) := ⟨_, rfl⟩
theorem CodeOfRow.ethPoll : CodeOfRow.Statement (.ethPoll) := ⟨_, rfl⟩
theorem CodeOfRow.ethReceive : CodeOfRow.Statement (.ethReceive) := ⟨_, rfl⟩
theorem CodeOfRow.ethDispatch : CodeOfRow.Statement (.ethDispatch) := ⟨_, rfl⟩
theorem CodeOfRow.ethAdvance : ∀ next, CodeOfRow.Statement (.ethAdvance next) := fun _ => ⟨_, rfl⟩
theorem CodeOfRow.ethTransmit : ∀ slot len, CodeOfRow.Statement (.ethTransmit slot len) := fun _ _ => ⟨_, rfl⟩
theorem CodeOfRow.ethCheckRetransmit : ∀ now, CodeOfRow.Statement (.ethCheckRetransmit now) := fun _ => ⟨_, rfl⟩
theorem CodeOfRow.ethAcknowledge : CodeOfRow.Statement (.ethAcknowledge) := ⟨_, rfl⟩
theorem CodeOfRow.arpHandleRequest : CodeOfRow.Statement (.arpHandleRequest) := ⟨_, rfl⟩
theorem CodeOfRow.ipReceive : CodeOfRow.Statement (.ipReceive) := ⟨_, rfl⟩
theorem CodeOfRow.udpDemux : CodeOfRow.Statement (.udpDemux) := ⟨_, rfl⟩
theorem CodeOfRow.ipCreate : ∀ destMac destIp srcPort dstPort udpLen, CodeOfRow.Statement (.ipCreate destMac destIp srcPort dstPort udpLen) := fun _ _ _ _ _ => ⟨_, rfl⟩
theorem CodeOfRow.ipReply : ∀ udpLen, CodeOfRow.Statement (.ipReply udpLen) := fun _ => ⟨_, rfl⟩
theorem CodeOfRow.ipSend : ∀ slot payload, CodeOfRow.Statement (.ipSend slot payload) := fun _ _ => ⟨_, rfl⟩
theorem CodeOfRow.dhcpBoot : CodeOfRow.Statement (.dhcpBoot) := ⟨_, rfl⟩
theorem CodeOfRow.dhcpReceive : CodeOfRow.Statement (.dhcpReceive) := ⟨_, rfl⟩
theorem CodeOfRow.dhcpParseOptions : CodeOfRow.Statement (.dhcpParseOptions) := ⟨_, rfl⟩
theorem CodeOfRow.tftpReadRequest : ∀ filename destBase destLimit hook verify, CodeOfRow.Statement (.tftpReadRequest filename destBase destLimit hook verify) := fun _ _ _ _ _ => ⟨_, rfl⟩
theorem CodeOfRow.tftpReceive : CodeOfRow.Statement (.tftpReceive) := ⟨_, rfl⟩
theorem CodeOfRow.tftpComplete : CodeOfRow.Statement (.tftpComplete) := ⟨_, rfl⟩
theorem CodeOfRow.irqTick : CodeOfRow.Statement (.irqTick) := ⟨_, rfl⟩
theorem CodeOfRow.fatal : ∀ code, CodeOfRow.Statement (.fatal code) := fun _ => ⟨_, rfl⟩
theorem CodeOfRow.engineBoot : CodeOfRow.Statement (.engineBoot) := ⟨_, rfl⟩
theorem CodeOfRow.ethArp : CodeOfRow.Statement (.ethArp) := ⟨_, rfl⟩
theorem CodeOfRow.ethIpv4 : CodeOfRow.Statement (.ethIpv4) := ⟨_, rfl⟩
theorem CodeOfRow.ethUnknown : ∀ ethertype, CodeOfRow.Statement (.ethUnknown ethertype) := fun _ => ⟨_, rfl⟩
theorem CodeOfRow.arpRequest : CodeOfRow.Statement (.arpRequest) := ⟨_, rfl⟩
theorem CodeOfRow.arpReply : CodeOfRow.Statement (.arpReply) := ⟨_, rfl⟩
theorem CodeOfRow.ipv4Udp : CodeOfRow.Statement (.ipv4Udp) := ⟨_, rfl⟩
theorem CodeOfRow.udpDhcpClient : CodeOfRow.Statement (.udpDhcpClient) := ⟨_, rfl⟩
theorem CodeOfRow.udpTftpClient : ∀ port, CodeOfRow.Statement (.udpTftpClient port) := fun _ => ⟨_, rfl⟩
theorem CodeOfRow.udpDhcpServer : CodeOfRow.Statement (.udpDhcpServer) := ⟨_, rfl⟩
theorem CodeOfRow.udpTftpServer : CodeOfRow.Statement (.udpTftpServer) := ⟨_, rfl⟩
theorem CodeOfRow.dhcpDiscover : CodeOfRow.Statement (.dhcpDiscover) := ⟨_, rfl⟩
theorem CodeOfRow.dhcpOffer : CodeOfRow.Statement (.dhcpOffer) := ⟨_, rfl⟩
theorem CodeOfRow.dhcpRequest : CodeOfRow.Statement (.dhcpRequest) := ⟨_, rfl⟩
theorem CodeOfRow.dhcpDecline : CodeOfRow.Statement (.dhcpDecline) := ⟨_, rfl⟩
theorem CodeOfRow.dhcpAck : CodeOfRow.Statement (.dhcpAck) := ⟨_, rfl⟩
theorem CodeOfRow.dhcpNak : CodeOfRow.Statement (.dhcpNak) := ⟨_, rfl⟩
theorem CodeOfRow.dhcpRelease : CodeOfRow.Statement (.dhcpRelease) := ⟨_, rfl⟩
theorem CodeOfRow.dhcpInform : CodeOfRow.Statement (.dhcpInform) := ⟨_, rfl⟩
theorem CodeOfRow.dhcpBootpReply : CodeOfRow.Statement (.dhcpBootpReply) := ⟨_, rfl⟩
theorem CodeOfRow.optPad : CodeOfRow.Statement (.optPad) := ⟨_, rfl⟩
theorem CodeOfRow.optHostname : CodeOfRow.Statement (.optHostname) := ⟨_, rfl⟩
theorem CodeOfRow.optBroadcastAddress : CodeOfRow.Statement (.optBroadcastAddress) := ⟨_, rfl⟩
theorem CodeOfRow.optRequestedIp : CodeOfRow.Statement (.optRequestedIp) := ⟨_, rfl⟩
theorem CodeOfRow.optLeaseTime : CodeOfRow.Statement (.optLeaseTime) := ⟨_, rfl⟩
theorem CodeOfRow.optMessageType : CodeOfRow.Statement (.optMessageType) := ⟨_, rfl⟩
theorem CodeOfRow.optServerIdentifier : CodeOfRow.Statement (.optServerIdentifier) := ⟨_, rfl⟩
theorem CodeOfRow.optParameterRequestList : CodeOfRow.Statement (.optParameterRequestList) := ⟨_, rfl⟩
theorem CodeOfRow.optMaxMessageSize : CodeOfRow.Statement (.optMaxMessageSize) := ⟨_, rfl⟩
theorem CodeOfRow.optClientIdentifier : CodeOfRow.Statement (.optClientIdentifier) := ⟨_, rfl⟩
theorem CodeOfRow.optEnd : CodeOfRow.Statement (.optEnd) := ⟨_, rfl⟩
theorem CodeOfRow.optUnknown : ∀ code, CodeOfRow.Statement (.optUnknown code) := fun _ => ⟨_, rfl⟩
theorem CodeOfRow.tftpRrq : CodeOfRow.Statement (.tftpRrq) := ⟨_, rfl⟩
theorem CodeOfRow.tftpData : CodeOfRow.Statement (.tftpData) := ⟨_, rfl⟩
theorem CodeOfRow.tftpAck : CodeOfRow.Statement (.tftpAck) := ⟨_, rfl⟩
theorem CodeOfRow.tftpError : CodeOfRow.Statement (.tftpError) := ⟨_, rfl⟩
theorem CodeOfRow.tftpOther : ∀ opcode, CodeOfRow.Statement (.tftpOther opcode) := fun _ => ⟨_, rfl⟩

end Sys2Proof.Laws
end

