-- ==== Sys2Proof/Tests/Slice0.lean ====
section
/-! SUPPORT. The model's own tests: the refusals of WellFormed, a word for every constructor written out
from the spec's encodings, the vectors of 95_test_vectors.md, and for every statement with hypotheses a
state and operands that meet them. Expected values come from the spec. -/

namespace Sys2Proof.Tests

open Sys2Proof.Machine

/-! ### Helpers -/

abbrev Out := Host.Outcome State Fault Refusal

/-- The outcome is a next state with a property. -/
def nextWith (o : Out) (p : State → Bool) : Bool :=
  match o with
  | .next s => p s
  | _ => false

/-- The outcome is a given fault. -/
def faults (o : Out) (f : Fault) : Bool :=
  match o with
  | .fault g => decide (f = g)
  | _ => false

/-- The state of an outcome, where it has one. -/
def stateOf (o : Out) : State :=
  match o with
  | .next s => s
  | _ => State.reset

theorem next_stateOf {o : Out} (h : nextWith o (fun _ => true) = true) : o = .next (stateOf o) := by
  cases o <;> first | rfl | cases h

theorem exists_next {o : Out} (h : nextWith o (fun _ => true) = true) : ∃ t, o = .next t :=
  ⟨stateOf o, next_stateOf h⟩

/-- A code word reads as an instruction. -/
def reads (f : Format) (bytes : List Byte) (i : Instr) : Bool :=
  match decode ⟨f, bytes⟩ with
  | .ok j => decide (i = j)
  | .error _ => false

/-- Reset, with eight waits that complete, the client port 0x0400 and a jitter of 3 drawn. -/
def fresh : State :=
  { State.reset with
    draws := { State.reset.draws with
      polls := [1000, 0, 0, 0, 0, 0, 0, 0], jitters := [3], ports := [0x0400], transfers := [false] } }

/-- Bytes in the shared buffer. -/
def withBuf (bs : List Byte) (s : State) : State := { s with buf := Memory.write [] 0 bs }

/-- A live frame, the rest of it zero. -/
def withFrame (bs : List Byte) (n : Nat) (s : State) : State :=
  { withBuf bs s with live := true, liveLen := BitVec.ofNat 16 n }

/-- BOUND as program P2 leaves it, the accumulator reset by the frames it sent. -/
def bound : State :=
  { fresh with
    irqMask := false
    ck := ckZero
    ip := { host := 0xc0000232, bcast := 0xc00002ff, server := 0xc0000201,
            serverMac := 0x0200000000fe }
    dhcp := { phase := .bound, server := 0xc0000201, offered := 0xc0000232 } }

/-- REQUESTING as program P2 leaves it after step 2. -/
def requesting : State :=
  { fresh with
    irqMask := false
    ck := ckZero
    rtx := { prioEnd := 0x1d56, timeout := 50, wait := 50, start := 0 }
    dhcp := { phase := .requesting, server := 0xc0000201, offered := 0xc0000232 } }

/-- AWAITING_OFFER. -/
def awaiting : State :=
  { requesting with dhcp := { phase := .awaitingOffer, server := 0, offered := 0 } }

/-- BOUND with a transfer in progress, as program P3 leaves it after step 1. -/
def transferring : State :=
  { bound with
    tftp := { active := true, expected := 1, latched := false, serverPort := 0, clientPort := 0x0400,
              destBase := 0x8000, destLimit := 0x9000, cursor := 0x8000, total := 0, hook := false,
              verify := false } }

/-- The Ethernet header of a frame of the server. -/
def fromServer (hi lo : Byte) : List Byte :=
  [0x02, 0, 0, 0, 0, 0x01, 0x02, 0, 0, 0, 0, 0xfe, hi, lo]

/-- The DATA frame of IP-1, with its checksums (section 5). -/
def dataFrame : List Byte :=
  fromServer 0x08 0x00 ++
    [0x45, 0, 0, 0x23, 0, 0, 0, 0, 0x40, 0x11, 0xf6, 0x96, 0xc0, 0, 2, 1, 0xc0, 0, 2, 0x32,
     0xc3, 0x51, 0x04, 0, 0, 0x0f, 0xef, 0xe3, 0, 3, 0, 1, 0x61, 0x62, 0x63]

/-- A datagram that passed `IP.RECEIVE` in the live frame: UDP ports and data, the data zero after the
bytes given. -/
def withDatagram (sport dport : List Byte) (len : Nat) (payload : List Byte) (s : State) : State :=
  { withFrame (fromServer 0x08 0x00 ++
      [0x45, 0] ++ bytesBE 2 (28 + len) ++ [0, 0, 0, 0, 0x40, 0x11, 0, 0, 0xc0, 0, 2, 1, 0xc0, 0, 2,
        0x32] ++ sport ++ dport ++ bytesBE 2 (8 + len) ++ [0, 0] ++ payload) (42 + len) s with
    ipView := some { off := 42, len := len, src := 0xc0000201 } }

/-- A live DHCP message of the server to port 68, with the address it offers at 16 and its options
from 240 (DH-3). -/
def withMessage (options : List Byte) (s : State) : State :=
  let d := withDatagram [0, 0x43] [0, 0x44] (240 + options.length) [] s
  let offer := Memory.write d.buf 58 [0xc0, 0, 2, 0x32]
  { d with buf := Memory.write offer 278 ([0x63, 0x82, 0x53, 0x63] ++ options) }

/-- A live TFTP message to the client port. -/
def withTftp (len : Nat) (payload : List Byte) (s : State) : State :=
  withDatagram [0xc3, 0x51] [0x04, 0] len payload s

/-- The ARP-1 request (section 4). -/
def arpBytes : List Byte :=
  [0xff, 0xff, 0xff, 0xff, 0xff, 0xff, 0x02, 0, 0, 0, 0, 0xfe, 0x08, 0x06, 0, 1, 0x08, 0, 6, 4, 0, 1,
   0x02, 0, 0, 0, 0, 0xfe, 0xc0, 0, 2, 1, 0, 0, 0, 0, 0, 0, 0xc0, 0, 2, 0x32]

/-! ### WellFormed refuses -/

theorem test_wf_operand_too_wide :
    (Instr.ckAccumulate .buf 4294967296 0).wellFormed = false ∧
    (Instr.ckAccumulate .buf 0 4294967296).wellFormed = false ∧
    (Instr.ckAccumulateStream 4294967296 .buf 0 0).wellFormed = false ∧
    (Instr.ckAccumulateStream 0 .buf 4294967296 0).wellFormed = false ∧
    (Instr.ckAccumulateStream 0 .buf 0 4294967296).wellFormed = false ∧
    (Instr.ckValidate .buf 4294967296 0 none).wellFormed = false ∧
    (Instr.ckValidate .buf 0 4294967296 none).wellFormed = false ∧
    (Instr.ckInstall .buf 4294967296 0 0).wellFormed = false ∧
    (Instr.ckInstall .buf 0 4294967296 0).wellFormed = false ∧
    (Instr.ckInstall .buf 0 0 4294967296).wellFormed = false ∧
    (Instr.ethAdvance 4294967296).wellFormed = false ∧
    (Instr.ethTransmit .reg 4294967296).wellFormed = false ∧
    (Instr.ethCheckRetransmit 4294967296).wellFormed = false ∧
    (Instr.tftpReadRequest [1] 4294967296 0 false false).wellFormed = false ∧
    (Instr.tftpReadRequest [1] 0 4294967296 false false).wellFormed = false := by decide

theorem test_wf_string_too_long (payload : List Byte) (h : payload.length = 4294967296) :
    (Instr.ipSend .reg payload).wellFormed = false ∧
    (Instr.tftpReadRequest payload 0 0 false false).wellFormed = false := by
  simp [Instr.wellFormed, h]

theorem test_wf_code_of_its_own_row :
    (Instr.ethUnknown 0x0806).wellFormed = false ∧ (Instr.ethUnknown 0x0800).wellFormed = false ∧
    (Instr.udpTftpClient 67).wellFormed = false ∧ (Instr.udpTftpClient 68).wellFormed = false ∧
    (Instr.udpTftpClient 69).wellFormed = false ∧
    (listedOptions.all fun c => !(Instr.optUnknown c).wellFormed) = true ∧
    (Instr.tftpOther 1).wellFormed = false ∧ (Instr.tftpOther 3).wellFormed = false ∧
    (Instr.tftpOther 4).wellFormed = false ∧ (Instr.tftpOther 5).wellFormed = false := by decide

/-! ### Decoding: a word for every constructor (R92 to R104, R108; operand layout of log 3) -/

theorem test_decode_checksum :
    reads .op [0x10] .ckReset ∧
    reads .op [0x11, 0x00, 0, 0, 0x01, 0x02, 0, 0, 0, 0x14] (.ckAccumulate .buf 0x102 20) ∧
    reads .op [0x11, 0x02, 0xc0, 0, 2, 1, 0xc0, 0, 2, 0x32, 0, 0x11, 0, 0x0f, 0, 0, 0, 0, 0, 0, 0, 12]
      (.ckAccumulate (.pseudo 0xc0000201c00002320011000f) 0 12) ∧
    reads .op [0x12, 0, 0, 0, 0x46, 0, 0, 0x80, 0, 0, 0, 0, 3]
      (.ckAccumulateStream 0x46 .buf 0x8000 3) ∧
    reads .op [0x13] .ckFold ∧
    reads .op [0x14, 0x01, 0, 0, 0, 14, 0, 0, 0, 20, 0x00] (.ckValidate .tpl 14 20 none) ∧
    reads .op [0x15, 0x01, 0, 0, 0, 14, 0, 0, 0, 20, 0, 0, 0, 24] (.ckInstall .tpl 14 20 24) := by
  decide

theorem test_decode_dispatcher :
    reads .op [0x20] .ethCycle ∧ reads .op [0x21] .ethPoll ∧ reads .op [0x22] .ethReceive ∧
    reads .op [0x23] .ethDispatch ∧ reads .op [0x24, 0, 0, 0x01, 0x60] (.ethAdvance 0x160) ∧
    reads .op [0x25, 0x01, 0, 0, 0x01, 0x56] (.ethTransmit .prio 342) ∧
    reads .op [0x26, 0, 0, 0, 150] (.ethCheckRetransmit 150) ∧ reads .op [0x27] .ethAcknowledge ∧
    reads .eth [0x08, 0x06] .ethArp ∧ reads .eth [0x08, 0x00] .ethIpv4 ∧
    reads .eth [0x86, 0xdd] (.ethUnknown 0x86dd) := by decide

theorem test_decode_arp_ip_udp :
    reads .op [0x30] .arpHandleRequest ∧ reads .arp [0x00, 0x01] .arpRequest ∧
    reads .arp [0x00, 0x02] .arpReply ∧ reads .op [0x40] .ipReceive ∧ reads .op [0x41] .udpDemux ∧
    reads .op [0x42, 0x02, 0, 0, 0, 0, 0xfe, 0xc0, 0, 2, 1, 0x04, 0, 0, 69, 0, 25]
      (.ipCreate 0x0200000000fe 0xc0000201 0x0400 69 25) ∧
    reads .op [0x43, 0, 12] (.ipReply 12) ∧
    reads .op [0x44, 0x01, 0, 0, 0, 4, 0, 4, 0, 1] (.ipSend .prio [0, 4, 0, 1]) ∧
    reads .ipv4 [0x11] .ipv4Udp ∧ reads .udp [0, 0x44] .udpDhcpClient ∧
    reads .udp [0, 0x43] .udpDhcpServer ∧ reads .udp [0, 0x45] .udpTftpServer ∧
    reads .udp [0x04, 0x00] (.udpTftpClient 0x0400) := by decide

theorem test_decode_dhcp :
    reads .op [0x50] .dhcpBoot ∧ reads .op [0x51] .dhcpReceive ∧ reads .op [0x52] .dhcpParseOptions ∧
    reads .dhcpOpt [0x35, 0x01, 0x01] .dhcpDiscover ∧ reads .dhcpOpt [0x35, 0x01, 0x02] .dhcpOffer ∧
    reads .dhcpOpt [0x35, 0x01, 0x03] .dhcpRequest ∧ reads .dhcpOpt [0x35, 0x01, 0x04] .dhcpDecline ∧
    reads .dhcpOpt [0x35, 0x01, 0x05] .dhcpAck ∧ reads .dhcpOpt [0x35, 0x01, 0x06] .dhcpNak ∧
    reads .dhcpOpt [0x35, 0x01, 0x07] .dhcpRelease ∧ reads .dhcpOpt [0x35, 0x01, 0x08] .dhcpInform ∧
    reads .dhcp [] .dhcpBootpReply := by decide

theorem test_decode_options :
    reads .dhcpOpt [0x00] .optPad ∧ reads .dhcpOpt [0x0c, 0x04] .optHostname ∧
    reads .dhcpOpt [0x1c, 0x04] .optBroadcastAddress ∧ reads .dhcpOpt [0x32, 0x04] .optRequestedIp ∧
    reads .dhcpOpt [0x33, 0x04] .optLeaseTime ∧ reads .dhcpOpt [0x35, 0x01, 0x09] .optMessageType ∧
    reads .dhcpOpt [0x36, 0x04] .optServerIdentifier ∧
    reads .dhcpOpt [0x37, 0x01] .optParameterRequestList ∧
    reads .dhcpOpt [0x39, 0x02] .optMaxMessageSize ∧ reads .dhcpOpt [0x3d, 0x07] .optClientIdentifier ∧
    reads .dhcpOpt [0xff] .optEnd ∧ reads .dhcpOpt [0xfe, 0x02] (.optUnknown 0xfe) := by decide

theorem test_decode_tftp_and_system :
    reads .op ([0x60, 0, 0, 0, 1, 0x62] ++ [0, 0, 0x80, 0, 0, 0, 0x90, 0, 0, 1])
      (.tftpReadRequest [0x62] 0x8000 0x9000 false true) ∧
    reads .op [0x61] .tftpReceive ∧ reads .op [0x62] .tftpComplete ∧ reads .tftp [0, 1] .tftpRrq ∧
    reads .tftp [0, 3] .tftpData ∧ reads .tftp [0, 4] .tftpAck ∧ reads .tftp [0, 5] .tftpError ∧
    reads .tftp [0, 2] (.tftpOther 2) ∧ reads .op [0x70] .irqTick ∧ reads .op [0x71, 7] (.fatal 7) ∧
    reads .op [0x72] .engineBoot := by decide

/-- A word of the table, as the table numbers its bits: `35 01 05`, the first byte in bits 7 to 0. -/
theorem test_decode_table_word :
    decodeTableWord 24 0x050135 = some .dhcpAck ∧ decodeTableWord 8 0x72 = some .engineBoot ∧
    decodeTableWord 16 0x0806 = some .ethArp ∧ decodeTableWord 8 0x3d = some .optClientIdentifier := by
  decide

/-! ### Vectors (95_test_vectors.md) -/

/-- CK-1, CK-4, CK-6, CK-8, CK-9: the state after an accumulation, and its fold. -/
theorem test_checksum_vectors :
    ckSum ckZero [0x00, 0x01, 0xf2, 0x03, 0xf4, 0xf5, 0xf6, 0xf7] = ⟨0xddf1, true, true⟩ ∧
    ckFold ⟨0xddf1, true, true⟩ = 0xddf2 ∧
    ckSum ckZero [0xff, 0xff, 0x00, 0x01] = ⟨0x0000, true, true⟩ ∧
    ckFold ⟨0x0000, true, true⟩ = 0x0001 ∧ ckSum ckZero [0xab] = ⟨0xab00, false, true⟩ ∧
    ckSum ckZero [0x12, 0x34, 0x56] = ⟨0x6834, false, true⟩ ∧
    ckFold (ckSum ckZero [0xff, 0xfe, 0x00, 0x01]) = 0xffff := by decide

/-- CK-12: a split at an odd offset is another sum. -/
theorem test_odd_split :
    ckFold (ckSum (ckSum ckZero [0x00, 0x01, 0xf2]) [0x03, 0xf4, 0xf5, 0xf6, 0xf7]) = 0xe2ed := by
  decide

/-- The IP header of program P1. -/
def rrqHeader : List Byte :=
  [0x45, 0, 0, 0x2d, 0, 0, 0, 0, 0x40, 0x11, 0xf6, 0x8c, 0xc0, 0, 2, 0x32, 0xc0, 0, 2, 1]

/-- P1 steps 2 and 5: half a header, and the installed checksum. -/
theorem test_program_p1 :
    nextWith (exec (.ckAccumulate .buf 0 10) { withBuf rrqHeader fresh with ck := ckZero })
      (fun s => decide (s.ck = ⟨0x853e, false, true⟩)) = true ∧
    nextWith (exec (.ckInstall .buf 0 20 10) (withBuf rrqHeader fresh))
      (fun s => decide (s.ck = ⟨0x0973, false, true⟩) &&
        decide (Memory.readBytes s.buf 10 2 = [0xf6, 0x8c])) = true := by decide

/-- P1 step 6 and its change CK-7 with the field zeroed. -/
theorem test_validate_p1 :
    nextWith (exec (.ckValidate .buf 0 20 none) (withBuf rrqHeader fresh))
      (fun s => decide (s.result = .flag true)) = true ∧
    nextWith (exec (.ckValidate .buf 0 19 none) (withBuf rrqHeader fresh))
      (fun s => decide (s.result = .flag false)) = true := by decide

/-- CK-14, of bytes in a transmit slot and of the second frame in the ring, at the next pointer of the
first. -/
theorem test_stream_sums_what_it_copies :
    let sums := fun s : State => decide (s.ck = ⟨0x6834, false, true⟩) &&
      decide (s.buf = [(0, 0x12), (1, 0x34), (2, 0x56)])
    nextWith (exec (.ckAccumulateStream 0x1a00 .buf 0 3)
      { fresh with ctrl := Memory.write [] 0x1a00 [0x12, 0x34, 0x56], ck := ckZero }) sums = true ∧
    nextWith (exec (.ckAccumulateStream 0x50 .buf 0 3)
      { fresh with ring := [⟨0x50, [7, 7]⟩, ⟨0x90, [0x12, 0x34, 0x56, 9]⟩], ck := ckZero }) sums =
      true := by decide

/-- Log 9: a range past the end of its space runs, and what the space has no room for is not kept. -/
theorem test_range_past_the_end :
    nextWith (exec (.ckValidate .tpl 40 4 none) fresh) (fun s => s.ck.init) = true ∧
    nextWith (exec (.ckAccumulateStream 0x1a00 .buf 599 3)
        { fresh with ctrl := Memory.write [] 0x1a00 [0x12, 0x34, 0x56], ck := ckZero })
      (fun s => decide (s.buf = [(599, 0x12)]) && decide (s.ck = ⟨0x6834, false, true⟩)) = true := by
  decide

/-- A frame of zeros in the ring. -/
def inRing (next n : Nat) (s : State) : State := { s with ring := [⟨next, List.replicate n 0⟩] }

/-- ET-1 and ET-2: recovery from a pointer past the ring; a frame of 13 bytes is skipped. -/
theorem test_receive_et1_et2 :
    nextWith (exec .ethCycle (inRing 0x1a10 60 bound))
      (fun s => s.ring.isEmpty && decide (s.rxRdptr = 0) && !s.live) = true ∧
    nextWith (exec .ethCycle (inRing 0x50 13 bound))
      (fun s => s.ring.isEmpty && decide (s.rxRdptr = 0x50) && !s.live) = true := by decide

/-- R23, R142: the stream read of a frame accumulates, which needs a reset accumulator; a dropped frame
is not read. -/
theorem test_receive_before_first_reset :
    faults (exec .ethReceive (inRing 0x50 14 fresh)) .ckUninit = true ∧
    nextWith (exec .ethReceive (inRing 0x50 13 fresh))
      (fun s => decide (s.result = .header { accepted := false, next := 0x50 })) = true := by decide

/-- An outstanding priority frame. -/
def outstanding (timeout wait start ticks : Nat) : State :=
  { bound with rtx := { prioEnd := 0x1c02, timeout := timeout, wait := wait, start := start },
               ticks := ticks }

/-- ET-8 and ET-9: one tick early nothing, at the wait a retransmission with jitter 3. -/
theorem test_retransmission_et8_et9 :
    nextWith (exec .ethCycle (outstanding 50 50 100 149))
      (fun s => decide (s.rtx.start = 100) && s.obs.isEmpty) = true ∧
    nextWith (exec .ethCycle (outstanding 50 50 100 150))
      (fun s => decide (s.rtx = { prioEnd := 0x1c02, timeout := 100, wait := 103, start := 150 }) &&
        decide (s.obs = [.tx .prio [0, 0] true])) = true := by decide

/-- ET-10 and ET-13: the counter wraps; the timeout is clamped. -/
theorem test_retransmission_et10_et13 :
    nextWith (exec (.ethCheckRetransmit 0x0022) (outstanding 50 50 0xfff0 0))
      (fun s => decide (s.rtx.start = 0x0022)) = true ∧
    nextWith (exec (.ethCheckRetransmit 300) (outstanding 300 300 0 0))
      (fun s => decide (s.rtx.timeout = 400)) = true := by decide

/-- ARP-1: the reply, in place and sent from the regular slot. -/
theorem test_arp_reply :
    nextWith (exec .ethDispatch (withFrame arpBytes 60 bound))
      (fun s => decide (s.obs = [.tx .reg
          [0x02, 0, 0, 0, 0, 0xfe, 0x02, 0, 0, 0, 0, 0x01, 0x08, 0x06, 0, 1, 0x08, 0, 6, 4, 0, 2,
           0x02, 0, 0, 0, 0, 0x01, 0xc0, 0, 2, 0x32, 0x02, 0, 0, 0, 0, 0xfe, 0xc0, 0, 2, 1] false]) &&
        decide (s.rtx.prioEnd = 0xffff)) = true := by decide

/-- IP-1: the whole datagram is accepted, its block acknowledged with the frame of IP-3 and written. -/
theorem test_datagram_ip1 :
    nextWith (exec .ethDispatch (withFrame dataFrame 49 transferring))
      (fun s => decide (s.ipView = some { off := 42, len := 7, src := 0xc0000201 }) &&
        decide (s.obs.head? = some (.tx .prio
          [0x02, 0, 0, 0, 0, 0xfe, 0x02, 0, 0, 0, 0, 0x01, 0x08, 0,
           0x45, 0, 0, 0x20, 0, 0, 0, 0, 0x40, 0x11, 0xf6, 0x99, 0xc0, 0, 2, 0x32, 0xc0, 0, 2, 1,
           0x04, 0, 0xc3, 0x51, 0, 0x0c, 0, 0, 0, 4, 0, 1] false)) &&
        decide (s.dest = [(0x8000, 0x61), (0x8001, 0x62), (0x8002, 0x63)])) = true := by decide

/-- IP-1b: one wrong byte and the UDP checksum drops the datagram. -/
theorem test_datagram_ip1b :
    nextWith (exec .ethDispatch (withFrame (dataFrame.dropLast ++ [0x62]) 49 transferring))
      (fun s => decide (s.ipView = none) && s.obs.isEmpty) = true := by decide

/-- IP-2: the template of the read request. -/
theorem test_template_ip2 :
    nextWith (exec (.ipCreate 0x0200000000fe 0xc0000201 0x0400 69 25) bound)
      (fun s => decide (Memory.readBytes s.tpl 0 42 =
        [0x02, 0, 0, 0, 0, 0xfe, 0x02, 0, 0, 0, 0, 0x01, 0x08, 0] ++ rrqHeader ++
          [0x04, 0, 0, 0x45, 0, 0x19, 0, 0])) = true := by decide

/-- IP-4: a payload of another length than the template's. -/
theorem test_length_mismatch_ip4 :
    faults (exec (.ipSend .prio [0, 4, 0, 1, 0])
      (stateOf (exec (.ipReply 12) (withTftp 7 [0, 3, 0, 1, 0x61, 0x62, 0x63] transferring))))
      .lengthMismatch = true := by decide

/-- DP-1, DP-7, DP-8: the options of an ACK, a short option 28, the last option 53 wins. -/
theorem test_options :
    (parseOptions (Memory.write [] 240 [0x35, 1, 5, 0x1c, 4, 0xc0, 0, 2, 0xff, 0xff]) 0 250).type =
      some 5 ∧
    (parseOptions (Memory.write [] 240 [0x35, 1, 5, 0x1c, 4, 0xc0, 0, 2, 0xff, 0xff]) 0 250).bcast =
      some 0xc00002ff ∧
    (parseOptions (Memory.write [] 240 [0x1c, 3, 0xc0, 0, 2, 0xff]) 0 246).status = .notWellFormed ∧
    (parseOptions (Memory.write [] 240 [0x35, 1, 2, 0x35, 1, 5, 0xff]) 0 247).type = some 5 := by
  decide

/-- DC-5 and DC-8: the ACK of the remembered server binds, another server's does not. -/
theorem test_ack_binds :
    nextWith (exec .dhcpReceive
        (withMessage [0x35, 1, 5, 0x1c, 4, 0xc0, 0, 2, 0xff, 0xff] requesting))
      (fun s => decide (s.dhcp.phase = .bound) && decide (s.ip =
        { host := 0xc0000232, bcast := 0xc00002ff, server := 0xc0000201,
          serverMac := 0x0200000000fe })) = true ∧
    nextWith (exec .dhcpReceive
        (withMessage [0x35, 1, 5, 0xff]
          { requesting with dhcp := { requesting.dhcp with server := 0xc0000209 } }))
      (fun s => decide (s.dhcp.phase = .requesting) && s.obs.isEmpty) = true := by decide

/-- TF-3 and TF-12: an unexpected block, and a block from another port. -/
theorem test_bad_block_and_port :
    nextWith (exec .tftpReceive (withTftp 7 [0, 3, 0, 3, 1, 2, 3] transferring))
      (fun s => decide (s.run = .haltedFatal) && decide (s.fatalReason = 4)) = true ∧
    nextWith (exec .tftpReceive (withTftp 7 [0, 3, 0, 1, 1, 2, 3]
        { transferring with tftp := { transferring.tftp with latched := true, serverPort := 0xc352 } }))
      (fun s => decide (s.fatalReason = 5)) = true := by decide

/-- EX-1 and EX-2: the counter wraps; a tick is lost while masked. -/
theorem test_ticks :
    nextWith (exec .irqTick { bound with ticks := 0xffff }) (fun s => decide (s.ticks = 0)) = true ∧
    nextWith (exec .irqTick fresh) (fun s => decide (s.ticks = 0)) = true := by decide

/-! ### Witnesses: a state and operands that meet the hypotheses of each statement -/

/-- An instruction completes. -/
abbrev completes (i : Instr) (s : State) : Prop := nextWith (exec i s) (fun _ => true) = true

/-- A session that has ended. -/
def ended : State := { bound with run := .haltedFatal, fatalReason := 1 }

theorem witness_DecodeInvertsEncode :
    (Instr.ckAccumulateStream 4294967295 .buf 0 4294967295).wellFormed = true ∧
    (Instr.optUnknown 254).wellFormed = true ∧ (Instr.ethUnknown 0x07ff).wellFormed = true := by decide

theorem witness_StepRunsTheFetchedUnit :
    decode ⟨.op, [0x27]⟩ = .ok .ethAcknowledge ∧
    { bound with script := [.coded ⟨.op, [0x27]⟩] }.script = .coded ⟨.op, [0x27]⟩ :: [] ∧
    (List.replicate 254 (⟨0, []⟩ : RxFrame)).length < 255 ∧
    fresh.script = [] ∧ fresh.irqMask = true ∧ bound.script = [] ∧ bound.irqMask = false ∧
    decodeTableWord 16 0x0044 = some .udpDhcpClient := by
  refine ⟨rfl, rfl, by decide +kernel, rfl, rfl, rfl, rfl, by decide +kernel⟩

theorem witness_UnacceptedCodesDoNothing :
    bound.run = .running ∧ (Instr.ethUnknown 0x0801).wellFormed = true ∧
    (0 : Word16) ≠ 1 ∧ (3 : Word16) ≠ 2 ∧ (16 : Byte) ≠ 17 ∧ (18 : Byte) ≠ 17 ∧
    (0x16 : Byte) ∉ operationCodes ∧ (0x73 : Byte) ∉ operationCodes := by decide

theorem witness_ResetSatisfiesInvariant :
    paramsValid Config.resetParams = true ∧
    paramsValid { Config.resetParams with tMax := 50, rxBufSize := 598, dhcpPadTo := 470 } = true := by
  decide

theorem witness_EveryStepKeepsInvariant :
    Invariant transferring ∧ ∃ t, step transferring = .next t :=
  ⟨by decide, exists_next (by decide)⟩

theorem witness_DhcpStateMovesForward : ∃ t, step awaiting = .next t := exists_next (by decide)

theorem witness_ConfigurationWrittenOnlyByBinding :
    ∃ t, step (withMessage [0x35, 1, 5] { requesting with script := [.coded ⟨.op, [0x51]⟩] }) =
      .next t ∧ t.dhcp.phase = .bound :=
  ⟨_, next_stateOf (by decide), by decide⟩

theorem witness_OnlyTheTimerWritesTicks :
    bound.irqMask = false ∧ fresh.irqMask = true ∧ (∃ t, exec .ckReset bound = .next t) ∧
    Instr.ckReset ≠ .irqTick := ⟨rfl, rfl, exists_next (by decide), by decide⟩

theorem witness_DestinationWritesStayInside :
    ∃ t, exec .tftpReceive (withTftp 516 [0, 3, 0, 1, 7]
        { transferring with tftp := { transferring.tftp with destLimit := 0x8200 } }) = .next t ∧
      Memory.read t.dest 0x8000 ≠ Memory.read transferring.dest 0x8000 :=
  ⟨_, next_stateOf (by decide +kernel), by decide +kernel⟩

theorem witness_ObservationLogRecordsTheEnd :
    (∃ t, exec (.fatal 7) bound = .next t ∧ bound.run = .running ∧ t.run = .haltedFatal) ∧
    (∃ t, exec .tftpComplete { transferring with
        draws := { fresh.draws with transfers := [true] } } = .next t ∧ t.run = .transferred) ∧
    (∃ t, exec .ckReset bound = .next t ∧ t.run = .running) :=
  ⟨⟨_, next_stateOf (by decide), by decide, by decide⟩, ⟨_, next_stateOf (by decide), by decide⟩,
    ⟨_, next_stateOf (by decide), by decide⟩⟩

theorem witness_EndedSessionTakesNoStep :
    ended.run ≠ .running ∧ { ended with run := .transferred }.run ≠ .running ∧
    faults (exec (.tftpReadRequest [0x62] 0 0 false false) ended) .hostProtocol = true ∧
    faults (exec .ckReset ended) .mainStopped = true := by decide

theorem witness_PrioritySlotKeptBetweenSends :
    paramsValid (outstanding 50 50 0 50).par = true ∧
    ∃ t, exec .ethCycle (outstanding 50 50 0 50) = .next t ∧ t.run = .running ∧
      t.obs = (outstanding 50 50 0 50).obs ++ [.tx .prio [0, 0] true] ∧
      (∀ bytes, Obs.tx .prio bytes false ∉ [Obs.tx .prio [0, 0] true]) ∧
      (outstanding 50 50 0 50).par.txPrioStart ≤ 0x1dff ∧ 0x1dff < 0x1c00 + 0x200 :=
  ⟨by decide, _, next_stateOf (by decide), by decide, by decide, by simp, by decide, by decide⟩

theorem witness_ChecksumResetClears : fresh.run = .running := rfl

theorem witness_AccumulateRunsTheLoop :
    fresh.run = .running ∧ fresh.ck.init = false ∧ { fresh with ck := ckZero }.ck.init = true ∧
    599 + 1 ≤ fresh.par.rxBufSize ∧ 41 + 1 ≤ 42 ∧ 0 + 12 ≤ 12 := by decide

theorem witness_AccumulateStreamCopiesAndSums :
    let pending := inRing 0x50 14 bound
    (bound.run = .running ∧ bound.ck.init = true ∧ waitsComplete bound 1 ∧ bound.ring = []) ∧
    (frameAt pending.par pending.rxRdptr pending.ring 0 = some ⟨0x50, List.replicate 14 0⟩ ∧
      (List.replicate 14 (0 : Byte)).length < 65536 ∧
      frameAt pending.par pending.rxRdptr pending.ring 0x1a00 = none ∧
      ¬ ringHas pending.par 0x1a00 ∧ ringHas pending.par 0x19ff) ∧
    (fresh.run = .running ∧ fresh.ck.init = false ∧ waitsComplete fresh 1) := by decide

theorem witness_FoldAddsResidualCarry :
    fresh.run = .running ∧ fresh.ck.init = false ∧
    { fresh with ck := ⟨0xffff, true, true⟩ }.ck.init = true := by decide

theorem witness_EvenSplitAccumulatesAlike :
    ∃ t, exec (.ckAccumulate .buf 0 (2 * 5)) { withBuf rrqHeader fresh with ck := ckZero } = .next t :=
  exists_next (by decide)

theorem witness_FoldIgnoresWordOrder :
    [(0xffff : Word16), 0x0001, 0x1234].Perm [0x1234, 0xffff, 0x0001] := by decide

theorem witness_PseudoOperationsExpand :
    fresh.run = .running := rfl

theorem witness_InstalledChecksumValidates :
    2 * 9 + 2 ≤ 20 ∧ 0 + 20 ≤ (withBuf rrqHeader fresh).par.rxBufSize ∧
    ∃ t, exec (.ckInstall .buf 0 20 (0 + 2 * 9)) (withBuf rrqHeader fresh) = .next t :=
  ⟨by decide, by decide, exists_next (by decide)⟩

theorem witness_ReceiveCopiesAcceptedFrame :
    let s := inRing 0x19ff 600 bound
    s.run = .running ∧ s.ring = ⟨0x19ff, List.replicate 600 0⟩ :: [] ∧ s.par.rxStart ≤ 0x19ff ∧
    0x19ff ≤ s.par.rxEnd ∧ (List.replicate 600 (0 : Byte)).length ≤ s.par.rxBufSize ∧
    waitsComplete s 2 ∧ s.ck.init = true ∧ (inRing 0x19ff 600 fresh).ck.init = false :=
  ⟨rfl, rfl, by decide, by decide, by rw [List.length_replicate]; decide, by decide, rfl, rfl⟩

theorem witness_ReceiveDropsOrRecovers :
    let short := inRing 0x50 13 bound
    let past := inRing 0x1a00 60 bound
    short.run = .running ∧ short.ring = ⟨0x50, List.replicate 13 0⟩ :: [] ∧ waitsComplete short 2 ∧
    short.par.rxStart ≤ 0x50 ∧ 0x50 ≤ short.par.rxEnd ∧ (List.replicate 13 (0 : Byte)).length < 14 ∧
    past.ring = ⟨0x1a00, List.replicate 60 0⟩ :: [] ∧ past.par.rxEnd < 0x1a00 ∧
    waitsComplete past 2 := by decide

/-- A frame one byte longer than the shared buffer. -/
theorem witness_ReceiveDropsOrRecovers_long :
    let long := inRing 0x300 601 bound
    long.run = .running ∧ long.ring = ⟨0x300, List.replicate 601 0⟩ :: [] ∧ waitsComplete long 2 ∧
    long.par.rxStart ≤ 0x300 ∧ 0x300 ≤ long.par.rxEnd ∧
    long.par.rxBufSize < (List.replicate 601 (0 : Byte)).length :=
  ⟨rfl, rfl, by decide, by decide, by decide, by rw [List.length_replicate]; decide⟩

theorem witness_DispatchSelectsByEthertype :
    let echo := withFrame [0, 0, 0, 0, 0, 0, 0x02, 0, 0, 0, 0, 0x01] 14 bound
    let arp := withFrame arpBytes 42 bound
    let ip := withFrame dataFrame 49 bound
    let other := withFrame (fromServer 0x86 0xdd) 14 bound
    bound.run = .running ∧ 14 ≤ echo.liveLen.toNat ∧ ethSource echo = echo.par.localMac ∧
    14 ≤ arp.liveLen.toNat ∧ ethSource arp ≠ arp.par.localMac ∧ ethType arp = 0x0806 ∧
    ethSource ip ≠ ip.par.localMac ∧ ethType ip = 0x0800 ∧
    14 ≤ other.liveLen.toNat ∧ ethSource other ≠ other.par.localMac ∧ ethType other ≠ 0x0806 ∧
    ethType other ≠ 0x0800 := by decide

theorem witness_PollAndAdvanceUseTheRing : bound.run = .running ∧ waitsComplete bound 1 := by decide

theorem witness_TransmitSendsTheSlot :
    bound.run = .running ∧ bound.par.txSlotSize < 513 ∧ 512 ≤ bound.par.txSlotSize ∧
    waitsComplete bound 1 := by decide

theorem witness_CheckRetransmitBacksOff :
    let s := outstanding 399 400 0 0
    s.run = .running ∧ bound.rtx.prioEnd = bound.par.prioNone ∧ elapsed s.par 399 0 < s.rtx.wait ∧
    s.rtx.prioEnd ≠ s.par.prioNone ∧ s.rtx.wait ≤ elapsed s.par 400 s.rtx.start ∧
    s.rtx.timeout < s.par.tMax ∧ waitsComplete s 1 ∧ 400 < 2 ^ s.par.tickBits := by decide

theorem witness_ExpiryAtMaximumIsFatal :
    let s := outstanding 400 405 353 758
    s.run = .running ∧ s.rtx.prioEnd ≠ s.par.prioNone ∧
    s.rtx.wait ≤ elapsed s.par 758 s.rtx.start ∧ s.rtx.timeout = s.par.tMax := by decide

theorem witness_ElapsedTimeWraps :
    0xffff < 2 ^ Config.resetParams.tickBits := by decide

theorem witness_AcknowledgeResetsTheTimer : bound.run = .running := rfl

theorem witness_CycleWithoutFrameChecksTimer :
    fresh.run = .running ∧ fresh.ring = [] ∧ fresh.rtx.prioEnd = fresh.par.prioNone := by decide

/-- A frame of an unknown ethertype in the ring. -/
def otherInRing : State := { bound with ring := [⟨0x50, fromServer 0x86 0xdd⟩] }

theorem witness_CycleRunsReceiveDispatchAdvance :
    ∃ a b c, otherInRing.run = .running ∧ otherInRing.ring ≠ [] ∧
      exec .ethReceive otherInRing = .next a ∧
      a.result = .header { accepted := true, next := 0x50 } ∧ a.run = .running ∧
      exec .ethDispatch { a with result := otherInRing.result } = .next b ∧ b.run = .running ∧
      exec (.ethAdvance 0x50) b = .next c ∧ c.run = .running :=
  ⟨_, _, _, by decide, by decide, next_stateOf (by decide), by decide, by decide,
    next_stateOf (by decide), by decide, next_stateOf (by decide), by decide⟩

/-- The three ways a transition ends the cycle early, and the two frames that are not dispatched. -/
theorem witness_CycleRunsReceiveDispatchAdvance_ends :
    let slow (polls : List Nat) := { otherInRing with draws := { fresh.draws with polls := polls } }
    (slow [1001]).ring ≠ [] ∧
    nextWith (exec .ethReceive (slow [1001])) (fun a => decide (a.run ≠ .running)) = true ∧
    nextWith (exec .ethDispatch (withFrame arpBytes 42 { bound with
      draws := { fresh.draws with polls := [1001] } })) (fun b => decide (b.run ≠ .running)) = true ∧
    nextWith (exec (.ethAdvance 0x50) (slow [1001])) (fun c => decide (c.run ≠ .running)) = true ∧
    (inRing 0x50 13 bound).ring = ⟨0x50, List.replicate 13 0⟩ :: [] ∧
    (inRing 0x1a00 60 bound).ring = ⟨0x1a00, List.replicate 60 0⟩ :: [] ∧
    waitsComplete (inRing 0x50 13 bound) 2 ∧ bound.par.rxStart ≤ 0x50 ∧ 0x50 ≤ bound.par.rxEnd ∧
    bound.par.rxEnd < 0x1a00 := by decide

theorem witness_ArpRequestIsAnswered :
    let s := withFrame arpBytes 42 bound
    s.run = .running ∧ 42 ≤ s.liveLen.toNat ∧ Memory.be16 s.buf 14 = 1 ∧
    Memory.be16 s.buf 16 = 0x0800 ∧ Memory.read s.buf 18 = 6 ∧ Memory.read s.buf 19 = 4 ∧
    s.ip.host ≠ 0 ∧ Memory.be32 s.buf 38 = s.ip.host ∧ takesArpRequest s .ethDispatch ∧
    takesArpRequest s .ethArp ∧ takesArpRequest s .arpHandleRequest ∧ takesArpRequest s .arpRequest ∧
    42 ≤ s.par.txSlotSize ∧ waitsComplete s 1 := by decide

theorem witness_ArpGivesNoReply :
    let other := withFrame (arpBytes.dropLast ++ [0x33]) 42 bound
    let early := withFrame arpBytes 42 fresh
    other.run = .running ∧ Memory.be32 other.buf 38 ≠ other.ip.host ∧ early.run = .running ∧
    early.ip.host = 0 := by decide

theorem witness_OnlyValidDatagramsAreDemultiplexed :
    let s := withFrame dataFrame 49 bound
    let bad := withFrame (dataFrame.dropLast ++ [0x62]) 49 bound
    s.run = .running ∧ ipFrameAccepted s ∧ takesDatagram s .ethDispatch ∧ takesDatagram s .ethIpv4 ∧
    takesDatagram s .ipReceive ∧ takesDatagram s .ipv4Udp ∧ udpDestPort s ≠ 68 ∧
    ¬ (s.tftp.active = true ∧ udpDestPort s = s.tftp.clientPort) ∧ bad.run = .running ∧
    ¬ ipFrameAccepted bad := by decide

theorem witness_DemuxMatchesPortsExactly :
    let s := withFrame dataFrame 38 transferring
    s.run = .running ∧ 15 ≤ s.liveLen.toNat ∧ 14 + 4 * ipIhl s + 4 ≤ s.liveLen.toNat ∧
    udpDestPort s = 0x0400 ∧ (s.tftp.active = true ∧ 0x0400 = s.tftp.clientPort) ∧
    ¬ (s.tftp.active = true ∧ 68 = s.tftp.clientPort) ∧
    ¬ (s.tftp.active = true ∧ 0x0401 = s.tftp.clientPort) ∧ (0x0401 : Word16) ≠ 68 := by decide

theorem witness_CreateAndReplyWriteTemplate :
    let s := withTftp 0 [] transferring
    let cut := stateOf (exec (.ckInstall .buf 14 0 14) s)
    (s.run = .running ∧ s.live = true ∧ s.ipView.isSome = true ∧
      14 + 4 * ipIhl s + 4 ≤ s.liveLen.toNat) ∧
    (cut.run = .running ∧ cut.live = true ∧ cut.ipView.isSome = true ∧
      cut.liveLen.toNat < 14 + 4 * ipIhl cut + 4) ∧
    (bound.run = .running ∧ bound.live = false) := by decide

/-- R71 with R145's empty range: the complement of zero makes IHL 15, so the ports of a 42-byte frame
lie past its end and the reply is dropped. -/
theorem test_reply_past_the_end :
    nextWith (exec (.ipReply 8) (stateOf (exec (.ckInstall .buf 14 0 14)
      (withTftp 0 [] transferring)))) (fun s => s.tpl.isEmpty) = true := by decide

/-- A template for four bytes of UDP data. -/
def replied : State := stateOf (exec (.ipReply 12) (withTftp 7 [0, 3, 0, 1] transferring))

/-- A template for one byte more than the slot takes. -/
def repliedLong : State := stateOf (exec (.ipReply 479) (withTftp 7 [0, 3, 0, 1] transferring))

theorem witness_SendTransmitsTemplateAndPayload :
    replied.run = .running ∧
    (Memory.be16 replied.tpl 38).toNat ≠ 8 + ([0, 4, 0] : List Byte).length ∧
    (Memory.be16 replied.tpl 38).toNat = 8 + ([0, 4, 0, 1] : List Byte).length ∧
    42 + ([0, 4, 0, 1] : List Byte).length ≤ replied.par.txSlotSize ∧ waitsComplete replied 2 ∧
    (Memory.be16 repliedLong.tpl 38).toNat = 8 + 471 ∧ repliedLong.par.txSlotSize < 42 + 471 ∧
    waitsComplete repliedLong 1 ∧
    ¬ waitsComplete { repliedLong with draws := { fresh.draws with polls := [1001] } } 1 ∧
    waitsComplete { replied with draws := { fresh.draws with polls := [1, 1001] } } 1 ∧
    ¬ waitsComplete { replied with draws := { fresh.draws with polls := [1, 1001] } } 2 := by
  decide

/-- An OFFER in the live frame. -/
def offered : State := withMessage [0x35, 1, 2, 0x36, 4, 0xc0, 0, 2, 1, 0xff] awaiting

theorem witness_OfferBroadcastsRequest :
    offered.run = .running ∧ offered.dhcp.phase = .awaitingOffer ∧ udpData offered = some (42, 250) ∧
    240 ≤ 250 ∧ (parseOptions offered.buf 42 250).status = .done ∧
    (parseOptions offered.buf 42 250).type = some 2 ∧ takesOwnType offered .dhcpReceive ∧
    takesOwnType offered .udpDhcpClient ∧ takesOwnType offered .udpDemux ∧
    Memory.be32 offered.buf (42 + 16) ≠ 0 ∧
    canSend offered (dhcpMessage offered.par (requestOptions offered.par
      (Memory.be32 offered.buf (42 + 16)) (ipSource offered))).length := by decide +kernel

/-- An ACK, and a message with no type and no options, in the live frame. -/
def acked : State := withMessage [0x35, 1, 5] requesting
def bootp : State := withMessage [] requesting

theorem witness_AckOrBootpReplyBinds :
    (acked.run = .running ∧ acked.dhcp.phase = .requesting ∧ ipSource acked = acked.dhcp.server ∧
      udpData acked = some (42, 243) ∧ (parseOptions acked.buf 42 243).status = .done ∧
      (parseOptions acked.buf 42 243).type = some 5 ∧ takesOwnType acked .dhcpReceive ∧
      Memory.be32 acked.buf (42 + 16) ≠ 0) ∧
    (ipSource bootp = bootp.dhcp.server ∧ udpData bootp = some (42, 240) ∧
      (parseOptions bootp.buf 42 240).status = .done ∧
      (parseOptions bootp.buf 42 240).type = none ∧ takesOwnType bootp .dhcpReceive ∧
      Memory.be32 bootp.buf (42 + 16) ≠ 0) := by decide

theorem witness_OtherMessagesAreIgnored :
    let nak := withMessage [0x35, 1, 6] requesting
    let early := withMessage [0x35, 1, 5] awaiting
    let booting := withMessage [0x35, 1, 2] fresh
    let rogue := withMessage [0x35, 1, 5]
      { requesting with dhcp := { requesting.dhcp with server := 0xc0000209 } }
    (nak.run = .running ∧ udpData nak = some (42, 243) ∧ nak.dhcp.phase = .requesting ∧
      (parseOptions nak.buf 42 243).type = some 6) ∧
    (udpData early = some (42, 243) ∧ early.dhcp.phase = .awaitingOffer ∧
      (parseOptions early.buf 42 243).type ≠ some 2) ∧
    (udpData booting = some (42, 243) ∧ booting.dhcp.phase = .init) ∧
    (udpData rogue = some (42, 243) ∧ ipSource rogue ≠ rogue.dhcp.server) ∧
    udpData (withTftp 239 [] requesting) = some (42, 239) := by decide

theorem witness_BoundIgnoresEveryMessage :
    bound.run = .running ∧ bound.dhcp.phase = .bound := by decide

theorem witness_WellFormedOptionsParse :
    let s := withMessage [0, 0x35, 1, 5, 0x1c, 4, 0xc0, 0, 2, 0xff, 0xff, 0x35] requesting
    let items : List OptItem := [.pad, .opt 0x35 [5], .opt 0x1c [0xc0, 0, 2, 0xff]]
    let whole := withMessage [0x35, 1, 5] requesting
    s.run = .running ∧ udpData s = some (42, 252) ∧ items.all OptItem.legal = true ∧
    Memory.readBytes s.buf (42 + 240) (252 - 240) = itemBytes items ++ 255 :: [0x35] ∧
    udpData whole = some (42, 243) ∧
    Memory.readBytes whole.buf (42 + 240) (243 - 240) = itemBytes [.opt 0x35 [5]] := by decide

theorem witness_MalformedOptionsDropTheMessage :
    let s := withMessage [0x35, 1, 5, 0x0c, 8, 0x61, 0x62] requesting
    let items : List OptItem := [.opt 0x35 [5]]
    s.run = .running ∧ udpData s = some (42, 247) ∧ items.all OptItem.legal = true ∧
    badTail [0x0c, 8, 0x61, 0x62] = true ∧
    Memory.readBytes s.buf (42 + 240) (247 - 240) = itemBytes items ++ [0x0c, 8, 0x61, 0x62] := by
  decide

/-- An iterator before an option of a given code and length byte, in a message that ends at 300. -/
def iterating (stop : Nat) (bytes : List Byte) : State :=
  { withMessage bytes requesting with
    opt := { k := 282, stop := stop, type := none, bcast := none, status := .running } }

theorem witness_OptionUnitsAdvanceTheIterator :
    let s := iterating 288 [0x1c, 4, 0xc0, 0, 2, 0xff]
    let short := iterating 287 [0x1c, 4, 0xc0, 0, 2, 0xff]
    s.run = .running ∧ s.opt.status = .running ∧ s.opt.k < s.opt.stop ∧
    s.opt.stop ≤ s.liveLen.toNat ∧ short.opt.stop ≤ short.liveLen.toNat ∧
    (Memory.read s.buf (s.opt.k + 1)).toNat = 4 ∧ s.opt.k + 2 + 4 ≤ s.opt.stop ∧
    short.opt.k < short.opt.stop ∧ ¬ short.opt.k + 2 + 4 ≤ short.opt.stop ∧
    (0xfe : Byte) ∉ listedOptions := by decide

theorem witness_CookieIsNotChecked : ([0, 0, 0, 0] : List Byte).length = 4 := rfl

theorem witness_ReadRequestStartsSession :
    (bound.run = .running ∧ bound.dhcp.phase = .bound ∧ ([0x62] : List Byte) ≠ [] ∧
      (0 : Byte) ∉ ([0x62] : List Byte) ∧ 0x8000 ≤ 0x8000 ∧
      (false = true → bound.par.signature ≠ none ∧ false = false) ∧
      canSend bound ([0x00, 0x01] ++ [0x62] ++ [0x00] ++ bound.par.tftpMode ++ [0x00]).length) ∧
    requesting.dhcp.phase ≠ .bound := by decide

/-- A DATA message of 512 bytes, the first one 7, and the same with the hook or with little room. -/
def fullBlock : State := withTftp 516 [0, 3, 0, 1, 7] transferring
def hookedBlock : State :=
  withTftp 516 [0, 3, 0, 1, 7] { transferring with tftp := { transferring.tftp with hook := true } }
def tightBlock : State :=
  withTftp 516 [0, 3, 0, 1, 7]
    { transferring with tftp := { transferring.tftp with destLimit := 0x81ff } }

theorem witness_NewBlockIsAcknowledgedAndDelivered :
    (fullBlock.run = .running ∧ udpData fullBlock = some (42, 516) ∧
      takesData fullBlock 42 .tftpReceive ∧ takesData fullBlock 42 .udpDemux ∧
      takesData fullBlock 42 (.udpTftpClient 0x0400) ∧ dataAcceptable fullBlock 516 ∧
      Memory.be16 fullBlock.buf (42 + 2) = fullBlock.tftp.expected ∧ fullBlock.tftp.hook = false ∧
      fullBlock.tftp.destBase ≤ fullBlock.tftp.cursor ∧
      fullBlock.tftp.cursor + 512 ≤ fullBlock.tftp.destLimit) ∧
    (udpData hookedBlock = some (42, 516) ∧ takesData hookedBlock 42 .tftpData ∧
      dataAcceptable hookedBlock 516 ∧ hookedBlock.tftp.hook = true ∧
      Memory.be16 hookedBlock.buf (42 + 2) = hookedBlock.tftp.expected) ∧
    (udpData tightBlock = some (42, 516) ∧ takesData tightBlock 42 .tftpData ∧
      dataAcceptable tightBlock 516 ∧ tightBlock.tftp.hook = false ∧
      Memory.be16 tightBlock.buf (42 + 2) = tightBlock.tftp.expected ∧
      tightBlock.tftp.destLimit < tightBlock.tftp.cursor + 512) :=
  ⟨by decide, by decide, by decide⟩

theorem witness_ShortBlockCompletesTransfer :
    let s := withTftp 515 [0, 3, 0, 1, 7] transferring
    let empty := withTftp 4 [0, 3, 0, 1] transferring
    let tight := withTftp 5 [0, 3, 0, 1, 7]
      { transferring with tftp := { transferring.tftp with destLimit := 0x8000 } }
    let hooked := withTftp 5 [0, 3, 0, 1, 7]
      { transferring with tftp := { transferring.tftp with hook := true } }
    (s.run = .running ∧ udpData s = some (42, 4 + 511) ∧ takesData s 42 .tftpReceive ∧
      dataAcceptable s (4 + 511) ∧ Memory.be16 s.buf (42 + 2) = s.tftp.expected ∧
      s.tftp.hook = false ∧ s.tftp.destBase ≤ s.tftp.cursor ∧
      s.tftp.cursor + 511 ≤ s.tftp.destLimit) ∧
    (udpData empty = some (42, 4 + 0) ∧ dataAcceptable empty (4 + 0)) ∧
    (udpData tight = some (42, 4 + 1) ∧ takesData tight 42 .tftpData ∧ dataAcceptable tight (4 + 1) ∧
      Memory.be16 tight.buf (42 + 2) = tight.tftp.expected ∧ tight.tftp.hook = false ∧
      tight.tftp.destLimit < tight.tftp.cursor + 1) ∧
    (udpData hooked = some (42, 4 + 1) ∧ takesData hooked 42 .tftpData ∧
      dataAcceptable hooked (4 + 1) ∧ hooked.tftp.hook = true ∧
      Memory.be16 hooked.buf (42 + 2) = hooked.tftp.expected) := by
  refine ⟨?_, ?_, ?_, ?_⟩ <;> decide

theorem witness_DuplicateBlockIsOnlyAcknowledged :
    let s := withTftp 516 [0, 3, 0, 0] transferring
    s.run = .running ∧ udpData s = some (42, 516) ∧ takesData s 42 .tftpReceive ∧
    dataAcceptable s 516 ∧ Memory.be16 s.buf (42 + 2) = s.tftp.expected - 1 := by decide

theorem witness_DuplicateIsWrittenOnce :
    fullBlock.run = .running ∧ udpData fullBlock = some (42, 516) ∧ dataAcceptable fullBlock 516 ∧
    waitsComplete fullBlock 4 ∧ Memory.be16 fullBlock.buf 42 = 3 ∧
    Memory.be16 fullBlock.buf (42 + 2) = fullBlock.tftp.expected ∧ fullBlock.tftp.hook = false ∧
    ∃ t, exec .tftpReceive fullBlock = .next t := by
  refine ⟨by decide, by decide, by decide, by decide, by decide, by decide, by decide, ?_⟩
  exact exists_next (by decide +kernel)

theorem witness_ErrorAndOtherOpcodesAreFatal :
    let err := withTftp 2 [0, 5] transferring
    let rrq := withTftp 2 [0, 1] transferring
    (err.run = .running ∧ udpData err = some (42, 2) ∧ 2 ≤ 2 ∧ Memory.be16 err.buf 42 = 5) ∧
    (udpData rrq = some (42, 2) ∧ Memory.be16 rrq.buf 42 ≠ 3 ∧ Memory.be16 rrq.buf 42 ≠ 5) ∧
    ((2 : Word16) ≠ 3 ∧ (6 : Word16) ≠ 5) := by decide

theorem witness_DataChecksDropOrAreFatal :
    let pinned := withTftp 4 [0, 3, 0, 1]
      { transferring with tftp := { transferring.tftp with latched := true, serverPort := 0xc352 } }
    let ahead := withTftp 516 [0, 3, 0, 2] transferring
    (pinned.run = .running ∧ udpData pinned = some (42, 4) ∧ Memory.be16 pinned.buf 42 = 3 ∧
      pinned.tftp.latched = true ∧ udpSourcePort pinned ≠ pinned.tftp.serverPort) ∧
    (udpData (withTftp 1 [0] transferring) = some (42, 1) ∧
      udpData (withTftp 3 [0, 3, 0] transferring) = some (42, 3) ∧
      Memory.be16 (withTftp 3 [0, 3, 0] transferring).buf 42 = 3 ∧
      udpData (withTftp 517 [0, 3, 0, 1] transferring) = some (42, 517)) ∧
    (ahead.run = .running ∧ udpData ahead = some (42, 516) ∧ Memory.be16 ahead.buf 42 = 3 ∧
      ahead.tftp.latched = false ∧ ahead.tftp.expected = 0 + 1 ∧
      Memory.be16 ahead.buf (42 + 2) = 0 + 2) := by decide

/-- A verified session with a signature of two bytes at the end of 100 bytes. -/
def verifying (second : Byte) : State :=
  { transferring with
    par := { transferring.par with signature := some (98, [0x53, 0x42]) }
    dest := Memory.write [] 0x8062 [0x53, second]
    tftp := { transferring.tftp with verify := true, total := 100 } }

theorem witness_CompleteHooksOrVerifies :
    (transferring.run = .running ∧ transferring.tftp.verify = false ∧
      transferDraw transferring = false ∧
      transferDraw { transferring with draws := { fresh.draws with transfers := [true] } } = true) ∧
    ((verifying 0x42).run = .running ∧ (verifying 0x42).tftp.verify = true ∧
      (verifying 0x42).par.signature = some (98, [0x53, 0x42]) ∧
      98 + 2 ≤ (verifying 0x42).tftp.total.toNat ∧
      Memory.readBytes (verifying 0x42).dest (0x8000 + 98) 2 = [0x53, 0x42] ∧
      Memory.readBytes (verifying 0x43).dest (0x8000 + 98) 2 ≠ [0x53, 0x42]) := by decide

theorem witness_FatalEntryKeepsTheRest :
    bound.run = .running ∧ (1 : Byte).toNat = 1 ∧ (7 : Byte).toNat = 7 ∧ 7 < (8 : Byte).toNat ∧
    ¬ waitsComplete { bound with draws := { fresh.draws with polls := [1001] } } 1 := by decide

theorem witness_BootSendsDiscover :
    (bound.run = .running ∧ bound.dhcp.phase ≠ .init ∧ isReset bound = false) ∧
    (fresh.run = .running ∧ fresh.dhcp.phase = .init ∧
      canSend fresh (dhcpMessage fresh.par (discoverOptions fresh.par)).length ∧
      isReset fresh = true ∧ paramsValid fresh.par = true ∧ waitsComplete fresh 3) ∧
    (Instr.ethCycle ≠ .engineBoot ∧
      nextWith (exec .ethCycle fresh) (fun t => t.irqMask && isReset t) = true) := by decide +kernel

end Sys2Proof.Tests
end

section
/-! Proofs of the scope statements (00_scope.md): which unit a step runs, and what a transition adds to
the observation log. The second goes through `exec_moves`: a path of small changes lets the log grow
and keeps the parameters, the control state and the fatal reason (`Grows`), and only `Terminal`
changes the control state, with one last event (`EndsFatally`, `EndsInTransfer`). -/

namespace Sys2Proof.Machine

/-! ### What a step runs -/

/-- The unit at the head of the script runs once it is taken off (R8; log 2). -/
theorem step_of_coded {s : State} {w : CodeWord} {rest : List Event} {i : Instr}
    (hs : s.script = .coded w :: rest) (hw : decode w = .ok i) :
    step s = exec i (s.setScript rest) := by
  simp only [step, fetch, hs, hw]

theorem step_of_arrival {s : State} {f : RxFrame} {rest : List Event}
    (hs : s.script = .arrival f :: rest) :
    step s = .next (linkArrival f (s.setScript rest)) := by
  simp only [step, fetch, hs]

theorem step_of_empty_script {s : State} (hs : s.script = []) :
    step s = exec (ownTransition s) s := by
  simp only [step, fetch, hs]

theorem linkArrival_of_room {f : RxFrame} {s : State} (h : s.ring.length < 255) :
    linkArrival f s = s.setRing (s.ring ++ [f]) := if_pos h

theorem decode_tableWord_of_some {nbits w : Nat} {i : Instr}
    (h : decodeTableWord nbits w = some i) : decode (tableWord nbits w) = .ok i := by
  unfold decodeTableWord at h
  cases hd : decode (tableWord nbits w) with
  | ok j => rw [hd] at h; cases h; rfl
  | error e => rw [hd] at h; cases h

/-- A table row's word is fetched by the next step, which leaves the script as it was. -/
theorem step_withFetchWord {s : State} {nbits w : Nat} {i : Instr}
    (h : decodeTableWord nbits w = some i) : step (s.withFetchWord nbits w) = exec i s :=
  step_of_coded (s := s.withFetchWord nbits w) (rest := s.script) rfl (decode_tableWord_of_some h)

/-- Settles O3: each clause is the step lemma for that head of the script. -/
theorem stepRunsTheFetchedUnit : Obligations.StepRunsTheFetchedUnit := by
  unfold Obligations.StepRunsTheFetchedUnit
  refine ⟨fun s w rest i hs hw => step_of_coded hs hw, fun s f rest hs hroom => ?_,
    fun s hs hmask => ?_, fun s hs hmask => ?_, fun s nbits w i h => step_withFetchWord h⟩
  · rw [step_of_arrival hs, linkArrival_of_room (by simpa using hroom)]
    rfl
  · rw [step_of_empty_script hs, ownTransition, if_pos hmask]
  · rw [step_of_empty_script hs, ownTransition, hmask]
    rfl

/-! ### The log grows while the session lasts -/

/-- `t` comes after `s` in a session that goes on: the log has grown, and the parameters, the control
state and the fatal reason are unchanged. -/
structure Grows (s t : State) : Prop where
  par : t.par = s.par
  run : t.run = s.run
  reason : t.fatalReason = s.fatalReason
  obs : s.obs <+: t.obs

theorem Grows.of_sameLog {s t : State} (hpar : t.par = s.par) (hrun : t.run = s.run)
    (hreason : t.fatalReason = s.fatalReason) (hobs : t.obs = s.obs) : Grows s t :=
  ⟨hpar, hrun, hreason, hobs ▸ List.prefix_refl _⟩

theorem Grows.refl (s : State) : Grows s s := .of_sameLog rfl rfl rfl rfl

theorem Grows.trans {s t u : State} (h : Grows s t) (k : Grows t u) : Grows s u :=
  ⟨k.par.trans h.par, k.run.trans h.run, k.reason.trans h.reason, h.obs.trans k.obs⟩

theorem Grows.emit {s t : State} {e : Obs} (h : Grows s t) : Grows s (t.emit e) :=
  ⟨h.par, h.run, h.reason, h.obs.trans (List.prefix_append _ _)⟩

/-- Only a priority send and a notification write the log. -/
theorem Atom.grows {s t : State} (a : Atom s t) : Grows s t := by
  cases a with
  | sendPrio bs h => exact .emit (.of_sameLog rfl rfl rfl rfl)
  | note e h1 h2 => exact .emit (.refl s)
  | _ => exact .of_sameLog rfl rfl rfl rfl

theorem PhaseMove.grows {s t : State} (m : PhaseMove s t) : Grows s t := by
  cases m with
  | boot h => exact .of_sameLog rfl rfl rfl rfl
  | offer h => exact .of_sameLog rfl rfl rfl rfl
  | bind yi bcast h hy => exact .emit (.of_sameLog rfl rfl rfl rfl)

theorem Session.grows {s t : State} (h : Session s t) : Grows s t := by
  cases h
  exact .of_sameLog rfl rfl rfl rfl

theorem BootStart.grows {s t : State} (h : BootStart s t) : Grows s t := by
  cases h
  exact .of_sameLog rfl rfl rfl rfl

theorem Path.grows {b : Bool} {s t : State} (p : Path b s t) : Grows s t := by
  induction p with
  | refl b s => exact .refl s
  | atom p a ih => exact ih.trans a.grows
  | phase p m ih => exact ih.trans m.grows

theorem takeTick_grows (s : State) : Grows s (takeTick s) := by
  unfold takeTick
  split
  · exact .refl s
  · exact .of_sameLog rfl rfl rfl rfl

/-! ### The last event of a session -/

/-- A fatal condition ended the session: its notification is the one further event, and the reason is
one that R391 lists (R390). -/
structure EndsFatally (s t : State) : Prop where
  par : t.par = s.par
  run : t.run = .haltedFatal
  obs : t.obs = s.obs ++ [.fatalNotify t.fatalReason]
  listed : 1 ≤ t.fatalReason.toNat ∧ t.fatalReason.toNat ≤ 7

/-- A transfer of control ended the session: its event is the one further event (R350). -/
structure EndsInTransfer (s t : State) : Prop where
  par : t.par = s.par
  run : t.run = .transferred
  reason : t.fatalReason = s.fatalReason
  obs : t.obs = s.obs ++ [.transferControl t.tftp.destBase t.tftp.total]

theorem fatalByte_listed (c : FatalCode) : 1 ≤ (fatalByte c).toNat ∧ (fatalByte c).toNat ≤ 7 := by
  cases c <;> decide

theorem enterFatal_endsFatally {s u : State} (c : FatalCode) (hpar : u.par = s.par)
    (hobs : u.obs = s.obs) : EndsFatally s (enterFatal u (fatalByte c)) where
  par := hpar
  run := rfl
  obs := hobs ▸ rfl
  listed := fatalByte_listed c

theorem Terminal.endsFatally_or_endsInTransfer {s t : State} (h : Terminal s t) :
    EndsFatally s t ∨ EndsInTransfer s t := by
  cases h with
  | fatal c => exact .inl (enterFatal_endsFatally c rfl rfl)
  | unsent bs d c h => exact .inl (enterFatal_endsFatally c rfl rfl)
  | transfer => exact .inr ⟨rfl, rfl, rfl, rfl⟩

/-! ### Every instruction -/

theorem grows_or_terminal {b : Bool} {s u t : State} (hg : Grows s u)
    (h : Path b u t ∨ ∃ w, Path b u w ∧ Terminal w t) :
    Grows s t ∨ ∃ w, Grows s w ∧ Terminal w t := by
  obtain p | ⟨w, p, q⟩ := h
  · exact .inl (hg.trans p.grows)
  · exact .inr ⟨w, hg.trans p.grows, q⟩

/-- An instruction lets the log grow, and may then end the session. -/
theorem exec_grows_or_terminal {i : Instr} {s t : State} (h : exec i s = .next t) :
    Grows s t ∨ ∃ w, Grows s w ∧ Terminal w t := by
  obtain ⟨-, rfl⟩ | ⟨-, -, u, hu, hp⟩ | ⟨-, -, u, hu, hp⟩ | ⟨-, hp⟩ := exec_moves h
  · exact .inl (takeTick_grows s)
  · exact grows_or_terminal hu.grows hp
  · exact grows_or_terminal hu.grows hp
  · exact grows_or_terminal (.refl s) hp

/-- Settles O12: while the log only grows the control state is kept, so a session that ended did so in
`Terminal`, whose one event is then the last. -/
theorem observationLogRecordsTheEnd : Obligations.ObservationLogRecordsTheEnd := by
  unfold Obligations.ObservationLogRecordsTheEnd
  intro i s t h
  obtain hg | ⟨w, hg, hend⟩ := exec_grows_or_terminal h
  · obtain ⟨new, hnew⟩ := hg.obs
    have hrun := hg.run
    exact ⟨hg.par, new, hnew.symm, fun hs ht => by simp [hs, ht] at hrun,
      fun hs ht => by simp [hs, ht] at hrun, fun _ => hg.reason⟩
  · obtain ⟨new, hnew⟩ := hg.obs
    obtain hf | ht := hend.endsFatally_or_endsInTransfer
    · refine ⟨hf.par.trans hg.par, new ++ [.fatalNotify t.fatalReason], ?_,
        fun _ _ => ⟨List.getLast?_concat, hf.listed⟩, ?_, ?_⟩
      · rw [hf.obs, ← hnew, List.append_assoc]
      · simp [hf.run]
      · simp [hf.run]
    · refine ⟨ht.par.trans hg.par, new ++ [.transferControl t.tftp.destBase t.tftp.total], ?_, ?_,
        fun _ _ => ⟨ht.reason.trans hg.reason, List.getLast?_concat⟩, ?_⟩
      · rw [ht.obs, ← hnew, List.append_assoc]
      · simp [ht.run]
      · simp [ht.run]

end Sys2Proof.Machine
end

section
/-! Proofs of the state statements (10_state.md): the invariant, the IP configuration and the end of
a session. All go through `exec_starts_path`, which puts what `exec_moves` says in one shape: a
start, a path of small changes, and perhaps the end of the session. The invariant is taken apart
once into named parts (`MachineInvariant`), so that each small change names the parts it touches. -/

namespace Sys2Proof.Machine

/-! ### The shape of a step -/

/-- Everything a step can do: the next state of an instruction, of an arrival or of a dropped unit,
each from the state with what is left of the script. -/
theorem step_cases {s t : State} (h : step s = .next t) :
    ∃ rest, (∃ i, exec i (s.setScript rest) = .next t) ∨
      (∃ f, t = linkArrival f (s.setScript rest)) ∨ t = s.setScript rest := by
  cases hs : s.script with
  | nil =>
    rw [step_of_empty_script hs] at h
    exact ⟨s.script, .inl ⟨_, h⟩⟩
  | cons e rest =>
    refine ⟨rest, ?_⟩
    cases e with
    | arrival f =>
      rw [step_of_arrival hs] at h
      cases h
      exact .inr (.inl ⟨f, rfl⟩)
    | coded w =>
      cases hw : decode w with
      | ok i => exact .inl ⟨i, step_of_coded hs hw ▸ h⟩
      | error e =>
        simp only [step, fetch, hs, hw] at h
        cases e with
        | noRow =>
          obtain ⟨-, ho⟩ := (runMain_next_iff _ t done).1 h
          cases ho
          exact .inr (.inr rfl)
        | _ => cases h

/-- What precedes the small changes of a transition: nothing, the tick, the start of a session, or
the link and the timer interrupt coming up at boot. -/
inductive Starts (i : Instr) (s : State) : State → Prop
  | here : Starts i s s
  | tick : Starts i s (takeTick s)
  | session {u : State} (h : Session s u) : Starts i s u
  | boot {u : State} (hi : i = .engineBoot) (h : BootStart s u) : Starts i s u

/-- What an instruction does: a start, a path of small changes, and, in a session that was RUNNING,
perhaps its end. -/
theorem exec_starts_path {i : Instr} {s t : State} (h : exec i s = .next t) :
    ∃ u w, Starts i s u ∧ Path true u w ∧ (t = w ∨ (s.run = .running ∧ Terminal w t)) := by
  obtain ⟨-, rfl⟩ | ⟨hr, -, u, hu, p | ⟨w, p, q⟩⟩ | ⟨hi, hr, u, hu, p | ⟨w, p, q⟩⟩ |
    ⟨hr, p | ⟨w, p, q⟩⟩ := exec_moves h
  · exact ⟨_, _, .tick, .refl _ _, .inl rfl⟩
  · exact ⟨u, t, .session hu, p.mono, .inl rfl⟩
  · exact ⟨u, w, .session hu, p.mono, .inr ⟨hr, q⟩⟩
  · exact ⟨u, t, .boot hi hu, p, .inl rfl⟩
  · exact ⟨u, w, .boot hi hu, p, .inr ⟨hr, q⟩⟩
  · exact ⟨s, t, .here, p, .inl rfl⟩
  · exact ⟨s, w, .here, p, .inr ⟨hr, q⟩⟩

theorem Starts.grows {i : Instr} {s u : State} (h : Starts i s u) : Grows s u := by
  cases h with
  | here => exact .refl s
  | tick => exact takeTick_grows s
  | session h => exact h.grows
  | boot hi h => exact h.grows

/-! ### What legal parameters give -/

theorem paramsValid_tMin_le_tMax {p : Params} (h : paramsValid p = true) : p.tMin ≤ p.tMax := by
  simp only [paramsValid, Bool.and_eq_true, decide_eq_true_eq] at h
  omega

/-- Both transmit slots lie inside controller memory (R62). -/
theorem paramsValid_slot_inside {p : Params} (h : paramsValid p = true) (slot : Slot) :
    slotStart p slot + p.txSlotSize ≤ p.ctrlMemSize := by
  simp only [paramsValid, Bool.and_eq_true, decide_eq_true_eq] at h
  cases slot <;> simp only [slotStart] <;> omega

/-- A slot is long enough for every frame of R64. -/
theorem paramsValid_slotBound {p : Params} (h : paramsValid p = true) :
    slotBound p ≤ p.txSlotSize := by
  simp only [paramsValid, Bool.and_eq_true, decide_eq_true_eq] at h
  exact h.2

/-! ### The invariant, part by part -/

/-- A write inside a space lists nothing outside it. -/
theorem listedBelow_write {m : Memory} {size a : Nat} {bs : List Byte} (hm : listedBelow m size)
    (h : bs ≠ [] → a + bs.length ≤ size) : listedBelow (Memory.write m a bs) size := by
  intro c hc
  obtain hold | ⟨hlow, hhigh⟩ := mem_write_fst (List.mem_map_of_mem (f := Prod.fst) hc)
  · obtain ⟨d, hd, hdc⟩ := List.mem_map.1 hold
    exact hdc ▸ hm d hd
  · have hne : bs ≠ [] := by
      rintro rfl
      simp only [List.length_nil] at hhigh
      omega
    have := h hne
    omega

/-- The parts of `Invariant`, by name. -/
structure MachineInvariant (s : State) : Prop where
  params : paramsValid s.par = true
  bufWf : Memory.wf s.buf = true
  tplWf : Memory.wf s.tpl = true
  ctrlWf : Memory.wf s.ctrl = true
  destWf : Memory.wf s.dest = true
  bufInside : listedBelow s.buf s.par.rxBufSize
  tplInside : listedBelow s.tpl Config.tplSize
  ctrlInside : listedBelow s.ctrl s.par.ctrlMemSize
  configured : configuredIffBound s
  timer : timerInRange s
  ticks : ticksFit s
  prioEnd : prioEndLegal s
  session : sessionLegal s
  live : liveFrameFits s
  reason : reasonOnlyWhenFatal s
  iterator : iteratorInside s
  view : viewInside s
  ring : s.ring.length ≤ 255

theorem invariant_iff (s : State) : Invariant s ↔ MachineInvariant s := by
  constructor
  · rintro ⟨params, ⟨bufWf, tplWf, ctrlWf, destWf⟩, ⟨bufInside, tplInside, ctrlInside⟩, configured,
      timer, ticks, prioEnd, session, live, reason, iterator, view, ring⟩
    exact { params, bufWf, tplWf, ctrlWf, destWf, bufInside, tplInside, ctrlInside, configured,
            timer, ticks, prioEnd, session, live, reason, iterator, view, ring }
  · intro h
    exact ⟨h.params, ⟨h.bufWf, h.tplWf, h.ctrlWf, h.destWf⟩,
      ⟨h.bufInside, h.tplInside, h.ctrlInside⟩, h.configured, h.timer, h.ticks, h.prioEnd, h.session,
      h.live, h.reason, h.iterator, h.view, h.ring⟩

namespace MachineInvariant

variable {s : State} (h : MachineInvariant s)
include h

theorem setBuf {a : Nat} {bs : List Byte} (hb : bs ≠ [] → a + bs.length ≤ s.par.rxBufSize) :
    MachineInvariant (s.setBuf (Memory.write s.buf a bs)) :=
  { h with
    bufWf := wf_write h.bufWf a bs
    bufInside := listedBelow_write h.bufInside hb }

theorem setTpl {a : Nat} {bs : List Byte} (hb : bs ≠ [] → a + bs.length ≤ Config.tplSize) :
    MachineInvariant (s.setTpl (Memory.write s.tpl a bs)) :=
  { h with
    tplWf := wf_write h.tplWf a bs
    tplInside := listedBelow_write h.tplInside hb }

/-- A frame that fits its slot is written inside controller memory. -/
theorem writeSlot (slot : Slot) {bs : List Byte} (hb : bs.length ≤ s.par.txSlotSize) :
    MachineInvariant (s.setCtrl (Memory.write s.ctrl (slotStart s.par slot) bs)) :=
  { h with
    ctrlWf := wf_write h.ctrlWf _ bs
    ctrlInside := listedBelow_write h.ctrlInside fun _ =>
      (Nat.add_le_add_left hb _).trans (paramsValid_slot_inside h.params slot) }

/-- Nothing is kept of an earlier frame, so the new one's length alone counts. -/
theorem takeFrame {bs : List Byte} (hmin : 14 ≤ bs.length) (hmax : bs.length ≤ s.par.rxBufSize)
    (h16 : bs.length < 65536) : MachineInvariant (takeFrame bs s) :=
  { h.setBuf (a := 0) (bs := bs) (by omega) with
    live := fun _ => by
      have hlen : (BitVec.ofNat 16 bs.length).toNat = bs.length := by
        rw [BitVec.toNat_ofNat, Nat.mod_eq_of_lt h16]
      exact hlen.symm ▸ ⟨hmin, hmax⟩
    iterator := fun hrun => by cases hrun
    view := fun hsome => by cases hsome }

theorem endFrame : MachineInvariant (endFrame s) :=
  { h with
    live := fun hlive => by cases hlive
    iterator := fun hrun => by cases hrun
    view := fun hsome => by cases hsome }

/-- A fresh wait starts now, with the timer at its minimum and no jitter (R178). -/
theorem freshWait {len : Nat} (hlen : len ≤ s.par.txSlotSize) :
    MachineInvariant (freshWait s (s.par.txPrioStart + len)) :=
  { h with
    timer := ⟨le_rfl, paramsValid_tMin_le_tMax h.params, le_rfl, Nat.le_add_right _ _⟩
    ticks := ⟨h.ticks.1, h.ticks.1⟩
    prioEnd := .inr ⟨Nat.le_add_right _ _, Nat.add_le_add_left hlen _⟩ }

theorem prioFrame {bs : List Byte} (hb : bs.length ≤ s.par.txSlotSize) :
    MachineInvariant (Machine.freshWait
      (s.setCtrl (Memory.write s.ctrl s.par.txPrioStart bs)) (s.par.txPrioStart + bs.length)) :=
  (h.writeSlot .prio hb).freshWait hb

/-- A doubled timeout is clamped at `T_MAX`, and the jitter goes on the wait alone (R180). -/
theorem backOff (now : Nat) : MachineInvariant (s.setRtx (backedOff s now)) :=
  { h with
    timer := by
      have hjitter : jitterDraw s ≤ s.par.jitterMax := Nat.min_le_right _ _
      obtain ⟨hmin, hmax, -, -⟩ := h.timer
      simp only [timerInRange, setRtx_par, setRtx_rtx, backedOff, doubled]
      omega
    ticks := ⟨h.ticks.1, Nat.mod_lt _ (Nat.two_pow_pos _)⟩ }

theorem ethAcknowledge : MachineInvariant (ethAcknowledge s) :=
  { h with
    timer := ⟨le_rfl, paramsValid_tMin_le_tMax h.params, le_rfl, Nat.le_add_right _ _⟩
    prioEnd := .inl rfl }

/-- A block is appended where it stays below `DEST_LIMIT` (R344). -/
theorem append {bs : List Byte} {total : Word32}
    (hlimit : s.tftp.cursor + bs.length ≤ s.tftp.destLimit) :
    MachineInvariant ((s.setDest (Memory.write s.dest s.tftp.cursor bs)).setTftp
      { s.tftp with cursor := s.tftp.cursor + bs.length, total := total }) :=
  { h with
    destWf := wf_write h.destWf _ bs
    session := ⟨h.session.1, fun hactive => by
      obtain ⟨hbound, hport, hbase, -⟩ := h.session.2 hactive
      exact ⟨hbound, hport, Nat.le_add_right_of_le hbase, hlimit⟩⟩ }

theorem setTftp {v : Tftp} (hport : v.clientPort = s.tftp.clientPort)
    (hbase : v.destBase = s.tftp.destBase) (hlimit : v.destLimit = s.tftp.destLimit)
    (hactive : v.active = true → s.tftp.active = true) (hcursor : v.cursor = s.tftp.cursor) :
    MachineInvariant (s.setTftp v) :=
  { h with
    session := by
      simp only [sessionLegal, setTftp_tftp, setTftp_dhcp, hport, hbase, hlimit, hcursor]
      exact ⟨h.session.1, fun hv => h.session.2 (hactive hv)⟩ }

/-- Before BOUND there is no configuration and no transfer, so a move between two earlier states
keeps both facts. -/
theorem setPhase {ph : DhcpPhase} (hold : s.dhcp.phase ≠ .bound) (hnew : ph ≠ .bound) :
    MachineInvariant (setPhase s ph) :=
  { h with
    configured := ⟨fun hhost => absurd (h.configured.1 hhost) hold, fun hph => absurd hph hnew⟩
    session := ⟨h.session.1, fun hactive => absurd (h.session.2 hactive).1 hold⟩ }

/-- Binding adopts an address other than 0 (R292). -/
theorem bind {yi : Word32} (bcast : Option Word32) (hyi : yi ≠ 0) :
    MachineInvariant (dhcpBind yi bcast s) :=
  { h.ethAcknowledge with
    configured := ⟨fun _ => rfl, fun _ => hyi⟩
    session := ⟨h.session.1, fun hactive => ⟨rfl, (h.session.2 hactive).2⟩⟩ }

/-- The reason written is one that R391 lists. -/
theorem enterFatal (c : FatalCode) : MachineInvariant (enterFatal s (fatalByte c)) :=
  { h with reason := ⟨fun hrun => absurd rfl hrun, fun _ => fatalByte_listed c⟩ }

theorem atom {t : State} (a : Atom s t) : MachineInvariant t := by
  cases a with
  | draws d => exact { h with }
  | ck c => exact { h with }
  | ring r hr => exact { h with ring := hr.trans h.ring }
  | cursor v => exact { h with }
  | result v => exact { h with }
  | opt v hv => exact { h with iterator := fun _ => hv }
  | view v hv => exact { h with view := fun _ => hv }
  | noFrame => exact h.endFrame
  | frame bs hmin hmax h16 => exact h.takeFrame hmin hmax h16
  | buf a bs hb => exact h.setBuf (hb h.params)
  | tpl a bs hb => exact h.setTpl hb
  | append bs total hlimit hbase => exact h.append hlimit
  | ctrlReg bs hb => exact h.writeSlot .reg hb
  | fresh len hlen => exact h.freshWait hlen
  | sendPrio bs hb => exact { h.prioFrame hb with }
  | backOff now => exact h.backOff now
  | acknowledge => exact h.ethAcknowledge
  | note e hfatal htransfer => exact { h with }
  | remember server offered hphase => exact { h with }
  | tftp v hport hbase hlimit hactive hcursor =>
    exact h.setTftp hport hbase hlimit hactive hcursor

theorem phaseMove {t : State} (m : PhaseMove s t) : MachineInvariant t := by
  cases m with
  | boot hphase => exact h.setPhase (by simp [hphase]) (by simp)
  | offer hphase => exact h.setPhase (by simp [hphase]) (by simp)
  | bind yi bcast hphase hyi => exact h.bind bcast hyi

/-- A read request needs BOUND, draws a legal port and starts at the base of its region (R330,
R332). -/
theorem sessionStart {t : State} (hs : Session s t) : MachineInvariant t := by
  cases hs with
  | start d port base limit hook verify hphase hzero h68 hle =>
    exact { h with session := ⟨h68, fun _ => ⟨hphase, hzero, le_rfl, hle⟩⟩ }

theorem bootStart {t : State} (hb : BootStart s t) : MachineInvariant t := by
  cases hb with
  | start d => exact { h with ring := Nat.zero_le _ }

theorem takeTick : MachineInvariant (takeTick s) := by
  unfold Machine.takeTick
  split
  · exact h
  · exact { h with ticks := ⟨Nat.mod_lt _ (Nat.two_pow_pos _), h.ticks.2⟩ }

theorem starts {i : Instr} {t : State} (hs : Starts i s t) : MachineInvariant t := by
  cases hs with
  | here => exact h
  | tick => exact h.takeTick
  | session hs => exact h.sessionStart hs
  | boot hi hb => exact h.bootStart hb

/-- A session that was RUNNING has no fatal reason, so none is left behind by a transfer of control.
-/
theorem terminal {t : State} (hrun : s.run = .running) (ht : Terminal s t) : MachineInvariant t := by
  cases ht with
  | fatal c => exact h.enterFatal c
  | unsent bs d c hb =>
    have hd : MachineInvariant ((Machine.freshWait
        (s.setCtrl (Memory.write s.ctrl s.par.txPrioStart bs))
        (s.par.txPrioStart + bs.length)).setDraws d) := { h.prioFrame hb with }
    exact hd.enterFatal c
  | transfer =>
    exact { h with reason := ⟨fun _ => h.reason.1 (by simp [hrun]), fun hf => by cases hf⟩ }

theorem arrival (f : RxFrame) : MachineInvariant (linkArrival f s) := by
  by_cases hroom : s.ring.length < 255
  · rw [linkArrival_of_room hroom]
    exact { h with ring := by simpa using hroom }
  · rw [linkArrival, if_neg hroom]
    exact h

theorem path {b : Bool} {t : State} (p : Path b s t) : MachineInvariant t := by
  induction p with
  | refl => exact h
  | atom _ a ih => exact (ih h).atom a
  | phase _ m ih => exact (ih h).phaseMove m

theorem exec {i : Instr} {t : State} (he : exec i s = .next t) : MachineInvariant t := by
  obtain ⟨u, w, hu, p, rfl | ⟨hr, q⟩⟩ := exec_starts_path he
  · exact (h.starts hu).path p
  · exact ((h.starts hu).path p).terminal (((hu.grows.trans p.grows).run).trans hr) q

end MachineInvariant

/-- Settles O7: the invariant's parts hold after each start, small change and end of a session, so
after every instruction; an arrival adds a frame where the ring has room. -/
theorem everyStepKeepsInvariant : Obligations.EveryStepKeepsInvariant := by
  unfold Obligations.EveryStepKeepsInvariant
  intro s t hs h
  rw [invariant_iff] at hs ⊢
  obtain ⟨rest, hstep⟩ := step_cases h
  have hrest : MachineInvariant (s.setScript rest) := { hs with }
  obtain ⟨i, he⟩ | ⟨f, rfl⟩ | rfl := hstep
  · exact hrest.exec he
  · exact hrest.arrival f
  · exact hrest

/-! ### The IP configuration -/

/-- `t` comes after `s` with the configuration and the DHCP state as they were; the remembered
server is kept once an offer has been accepted, since only an offer is remembered (R290). -/
structure KeepsConfig (s t : State) : Prop where
  ip : t.ip = s.ip
  phase : t.dhcp.phase = s.dhcp.phase
  server : s.dhcp.phase = .requesting → t.dhcp.server = s.dhcp.server

theorem KeepsConfig.of_same {s t : State} (hip : t.ip = s.ip) (hdhcp : t.dhcp = s.dhcp) :
    KeepsConfig s t := ⟨hip, by rw [hdhcp], fun _ => by rw [hdhcp]⟩

theorem KeepsConfig.refl (s : State) : KeepsConfig s s := .of_same rfl rfl

theorem KeepsConfig.trans {s t u : State} (h : KeepsConfig s t) (k : KeepsConfig t u) :
    KeepsConfig s u :=
  ⟨k.ip.trans h.ip, k.phase.trans h.phase,
    fun hs => (k.server (h.phase.trans hs)).trans (h.server hs)⟩

theorem Atom.keepsConfig {s t : State} (a : Atom s t) : KeepsConfig s t := by
  cases a with
  | remember server offered hphase => exact ⟨rfl, rfl, fun hs => by simp [hphase] at hs⟩
  | _ => exact .of_same rfl rfl

theorem Starts.keepsConfig {i : Instr} {s u : State} (h : Starts i s u) : KeepsConfig s u := by
  cases h with
  | here => exact .refl s
  | tick =>
    unfold takeTick
    split
    · exact .refl s
    · exact .of_same rfl rfl
  | session h => cases h; exact .of_same rfl rfl
  | boot hi h => cases h; exact .of_same rfl rfl

theorem Terminal.keepsConfig {s t : State} (h : Terminal s t) : KeepsConfig s t := by
  cases h <;> exact .of_same rfl rfl

/-- The configuration of `t` is that of `s`, or the one adopted between them by binding (R28, R292).
-/
def ConfigKeptOrBound (s t : State) : Prop :=
  t.ip = s.ip ∨
    (s.dhcp.phase = .requesting ∧ t.dhcp.phase = .bound ∧ t.ip.host ≠ 0 ∧
      t.ip.server = s.dhcp.server)

/-- Around a binding, the configuration and the remembered server are kept. -/
theorem ConfigKeptOrBound.between {s t u v : State} (hst : KeepsConfig s t)
    (htu : ConfigKeptOrBound t u) (huv : KeepsConfig u v) : ConfigKeptOrBound s v := by
  obtain hip | ⟨hreq, hbound, hhost, hserver⟩ := htu
  · exact .inl (huv.ip.trans (hip.trans hst.ip))
  · have hs : s.dhcp.phase = .requesting := hst.phase.symm.trans hreq
    refine .inr ⟨hs, huv.phase.trans hbound, ?_, ?_⟩
    · rwa [huv.ip]
    · rw [huv.ip, hserver, hst.server hs]

theorem PhaseMove.configKeptOrBound {s t : State} (m : PhaseMove s t) : ConfigKeptOrBound s t := by
  cases m with
  | boot hphase => exact .inl rfl
  | offer hphase => exact .inl rfl
  | bind yi bcast hphase hyi => exact .inr ⟨hphase, rfl, hyi, rfl⟩

/-- A path without a move of the DHCP state keeps the configuration. -/
theorem Path.keepsConfig {s t : State} (p : Path false s t) : KeepsConfig s t := by
  generalize hf : false = f at p
  induction p with
  | refl => exact .refl _
  | atom _ a ih => exact (ih hf).trans a.keepsConfig
  | phase => cases hf

theorem Path.configKeptOrBound {b : Bool} {s t : State} (p : Path b s t) : ConfigKeptOrBound s t := by
  induction p with
  | refl => exact .inl rfl
  | atom _ a ih => exact .between (.refl _) ih a.keepsConfig
  | phase p m => exact .between p.keepsConfig m.configKeptOrBound (.refl _)

theorem exec_configKeptOrBound {i : Instr} {s t : State} (h : exec i s = .next t) :
    ConfigKeptOrBound s t := by
  obtain ⟨u, w, hu, p, rfl | ⟨-, q⟩⟩ := exec_starts_path h
  · exact .between hu.keepsConfig p.configKeptOrBound (.refl _)
  · exact .between hu.keepsConfig p.configKeptOrBound q.keepsConfig

theorem linkArrival_ip (f : RxFrame) (s : State) : (linkArrival f s).ip = s.ip := by
  unfold linkArrival
  split <;> rfl

/-- Settles O9: of all that a transition can do, binding alone writes the configuration, and nothing
between REQUESTING and it writes the remembered server. -/
theorem configurationWrittenOnlyByBinding : Obligations.ConfigurationWrittenOnlyByBinding := by
  unfold Obligations.ConfigurationWrittenOnlyByBinding
  intro s t h
  obtain ⟨rest, ⟨i, he⟩ | ⟨f, rfl⟩ | rfl⟩ := step_cases h
  · exact exec_configKeptOrBound (s := s.setScript rest) he
  · exact .inl (linkArrival_ip f _)
  · exact .inl rfl

/-! ### The end of a session -/

/-- The timer's step writes `TICKS` alone (R384). -/
theorem takeTick_writes_ticks (s : State) : ∃ n, takeTick s = { s with ticks := n } := by
  unfold takeTick
  split
  · exact ⟨s.ticks, rfl⟩
  · exact ⟨_, rfl⟩

theorem tftpReadRequest_ended {s : State} (h : s.run ≠ .running) (f : List Byte) (b l : Nat)
    (hook verify : Bool) : tftpReadRequest f b l hook verify s = .fault .hostProtocol := by
  simp [tftpReadRequest, readRequestAllowed, h]

/-- Every operation of MAIN but a read request is `runMain` of a function of the state. -/
theorem exec_ended {i : Instr} {s : State} (h : s.run ≠ .running) (htick : i ≠ .irqTick)
    (hread : ∀ f b l hook verify, i ≠ .tftpReadRequest f b l hook verify) :
    exec i s = .fault .mainStopped := by
  cases i
  case irqTick => exact absurd rfl htick
  case tftpReadRequest f b l hook verify => exact absurd rfl (hread f b l hook verify)
  all_goals apply runMain_ended h

/-- Settles O13: the timer's step is taken, a read request is not allowed, and `runMain` stops every
other operation. -/
theorem endedSessionTakesNoStep : Obligations.EndedSessionTakesNoStep := by
  unfold Obligations.EndedSessionTakesNoStep
  intro i s h
  by_cases htick : i = .irqTick
  · subst htick
    obtain ⟨n, hn⟩ := takeTick_writes_ticks s
    exact .inl ⟨rfl, n, congrArg Host.Outcome.next hn⟩
  by_cases hread : ∃ f b l hook verify, i = .tftpReadRequest f b l hook verify
  · obtain ⟨f, b, l, hook, verify, rfl⟩ := hread
    exact .inr (.inl ⟨⟨f, b, l, hook, verify, rfl⟩,
      congrArg Res.outcome (tftpReadRequest_ended h f b l hook verify)⟩)
  · have hread' : ∀ f b l hook verify, i ≠ .tftpReadRequest f b l hook verify :=
      fun f b l hook verify hi => hread ⟨f, b, l, hook, verify, hi⟩
    exact .inr (.inr ⟨htick, hread', exec_ended h htick hread'⟩)

end Sys2Proof.Machine
end

section
/-! Proof of the boot statement (45_dhcp.md R280, 70_reset_and_hazards.md R421). Its rules come
first and serve every frame that is sent with `IP.CREATE` and `IP.SEND`: a checksum's fold by its
closed form, what `CK.INSTALL` leaves in its range, the template, and a payload sent from the
priority slot. -/

namespace Sys2Proof.Machine

/-! ### Ranges that read as three strings -/

/-- The middle of a range that reads as three strings. -/
theorem readBytes_middle {m : Memory} {a n : Nat} {pre mid post : List Byte}
    (h : Memory.readBytes m a n = pre ++ mid ++ post) :
    Memory.readBytes m (a + pre.length) mid.length = mid := by
  rw [List.append_assoc] at h
  obtain ⟨k, -, -, hrest⟩ := readBytes_app h
  obtain ⟨-, -, hmid, -⟩ := readBytes_app hrest
  exact hmid

/-- Writing over the middle of a range that reads as three strings. -/
theorem readBytes_write_middle {m : Memory} {a n : Nat} {pre old post new : List Byte}
    (h : Memory.readBytes m a n = pre ++ old ++ post) (hl : new.length = old.length) :
    Memory.readBytes (Memory.write m (a + pre.length) new) a n = pre ++ new ++ post := by
  rw [List.append_assoc] at h
  obtain ⟨k, rfl, hpre, hrest⟩ := readBytes_app h
  obtain ⟨j, rfl, -, hpost⟩ := readBytes_app hrest
  rw [← Nat.add_assoc, ← hl, readBytes_split3,
    readBytes_write_outside _ _ _ _ _ (.inl le_rfl), hpre, readBytes_write_same,
    readBytes_write_outside _ _ _ _ _ (.inr le_rfl), hl, hpost]

/-! ### The installed checksum -/

/-- The fold of a summed byte string is its closed form (R146). -/
theorem ckFold_ckSum (bs : List Byte) :
    ckFold (ckSum ckZero bs) = BitVec.ofNat 16 (foldOf bs) := by
  obtain ⟨q, hvalue, hzero⟩ := ckSum_value bs ckZero
  have hmax : ckValue (ckSum ckZero bs) ≤ 65536 := by
    have := (ckSum ckZero bs).sum.isLt
    unfold ckValue carryIn
    split <;> omega
  have hstart : ckValue ckZero = 0 := rfl
  show BitVec.ofNat 16 (ckValue (ckSum ckZero bs) % 65536 + ckValue (ckSum ckZero bs) / 65536) = _
  congr 1
  unfold foldOf foldOfSum
  split <;> omega

@[simp] theorem ckOver_init (pseudo bs : List Byte) : (ckOver pseudo bs).init = true := by
  simp [ckOver, ckZero]

/-- `CK.INSTALL` over a range whose field reads 0: the field takes the complement of the fold, and
the bytes around it stay (R145). -/
theorem readBytes_ckInstallIn {sp : ByteSpace} {size n : Nat} {m : Memory}
    {front pre post back : List Byte} (hn : n ≤ size)
    (h : Memory.readBytes m 0 n = front ++ (pre ++ [0, 0] ++ post) ++ back) :
    Memory.readBytes (ckInstallIn sp size m front.length (pre ++ [0, 0] ++ post).length
        (front.length + pre.length)).1 0 n =
      front ++ (pre ++ bytes16 (~~~ BitVec.ofNat 16 (foldOf (pre ++ [0, 0] ++ post))) ++ post) ++
        back := by
  have hlen := congrArg List.length h
  simp only [readBytes_length, List.length_append, List.length_cons, List.length_nil] at hlen
  have hfield : Memory.readBytes m 0 n = (front ++ pre) ++ [0, 0] ++ (post ++ back) := by
    simpa using h
  have hzeroed := readBytes_write_middle hfield (new := [0, 0]) rfl
  rw [Nat.zero_add, List.length_append] at hzeroed
  have hrange := readBytes_middle (pre := front) (mid := pre ++ [0, 0] ++ post) (post := back)
    (hzeroed.trans (by simp))
  rw [Nat.zero_add] at hrange
  rw [ckInstallIn_inside sp m (by simp; omega) (by omega)]
  dsimp only
  rw [hrange]
  have hstored := readBytes_write_middle hzeroed
    (new := bytes16 (ckField (ckOver [] (pre ++ [0, 0] ++ post)))) (by simp)
  rw [Nat.zero_add, List.length_append] at hstored
  rw [hstored, ckField, ckOver, ckSum, ckFold_ckSum]
  simp

/-! ### The template -/

/-- `IP.CREATE` writes the 42 bytes of R250 in the template and leaves the accumulator reset; it
changes nothing else. -/
theorem ipCreate_template (mac : Mac) (ip : Word32) (sport dport udpLen : Word16) (s : State) :
    ∃ (template : Memory) (c : Ck),
      Memory.readBytes template 0 42 =
        templateBytes mac s.par.localMac s.ip.host ip sport dport udpLen ∧
      (∀ a, 42 ≤ a → Memory.read template a = Memory.read s.tpl a) ∧ c.init = true ∧
      ipCreate mac ip sport dport udpLen s = (s.setTpl template).setCk c := by
  refine ⟨_, _, ?_, ?_, ?_, rfl⟩
  · have hw := readBytes_write_same s.tpl 0 (ethHeader s.par mac ++ ipHeader s.ip.host ip udpLen ++
      udpHeader sport dport udpLen)
    have hi := readBytes_ckInstallIn (sp := .tpl) (size := Config.tplSize) (n := 42)
      (front := ethHeader s.par mac)
      (pre := [0x45, 0x00] ++ bytes16 (lengthField (20 + udpLen.toNat)) ++ [0, 0, 0, 0, 0x40, 0x11])
      (post := bytes32 s.ip.host ++ bytes32 ip) (back := udpHeader sport dport udpLen) le_rfl
      (m := Memory.write s.tpl 0 (ethHeader s.par mac ++ ipHeader s.ip.host ip udpLen ++
        udpHeader sport dport udpLen)) (by
          simpa [ethHeader, ipHeader, udpHeader, Config.ipTtl] using hw)
    simpa [templateBytes, ipHeaderBytes, ethHeader, udpHeader, bytes16, bytesBE] using hi
  · intro a ha
    rw [ckInstallIn_inside .tpl _ (by decide) (by decide)]
    dsimp only
    rw [read_write, if_neg (by simp; omega), read_write, if_neg (by simp; omega), read_write,
      if_neg (by simp [ethHeader, ipHeader, udpHeader]; omega)]
  · simp [ckInstallIn]

/-- The UDP length that a template carries (R97). -/
theorem be16_template_udpLen {m : Memory} {mac lmac : Mac} {src dst : Word32}
    {sport dport udpLen : Word16}
    (h : Memory.readBytes m 0 42 = templateBytes mac lmac src dst sport dport udpLen) :
    Memory.be16 m 38 = udpLen := by
  have hlen := readBytes_middle (post := [0, 0]) (mid := bytes16 udpLen) h
  simp [ipHeaderBytes] at hlen
  rw [Memory.be16, hlen, word16_bytes16]

/-! ### Sending from the priority slot -/

/-- A payload that can be sent goes out behind a template built for it. -/
theorem ipSend_prio_template {s : State} {payload : List Byte} (hcan : canSend s payload.length)
    (mac : Mac) (ip : Word32) (sport dport : Word16) :
    ∃ u, SentPriority s u
        (templateBytes mac s.par.localMac s.ip.host ip sport dport
          (BitVec.ofNat 16 (8 + payload.length)) ++ payload) ∧
      ipSend .prio payload (ipCreate mac ip sport dport (lengthField (8 + payload.length)) s) =
        .ok () u := by
  obtain ⟨hwaits, hfits, h16⟩ := hcan
  rw [lengthField, if_pos h16]
  obtain ⟨template, c, hread, hout, hinit, hcreate⟩ :=
    ipCreate_template mac ip sport dport (BitVec.ofNat 16 (8 + payload.length)) s
  have hlen : (Memory.be16 template 38).toNat = 8 + payload.length := by
    rw [be16_template_udpLen hread, BitVec.toNat_ofNat, Nat.mod_eq_of_lt h16]
  rw [hcreate, ipSend_ok (s := (s.setTpl template).setCk c) hlen hfits hwaits]
  rw [← hread]
  refine ⟨_, ⟨template, c, by simp, hout, hinit, ?_⟩, rfl⟩
  simp [usePoll, trackSlot, freshWait, afterWaits, State.setTpl, State.setCk, State.setDraws,
    State.setCtrl, State.setRtx, State.emit, slotStart]

/-! ### Boot -/

/-- A message is a header of 240 bytes and its options, padded up to `DHCP_PAD_TO` (R281). -/
theorem dhcpMessage_length (p : Params) (options : List Byte) :
    (dhcpMessage p options).length = max p.dhcpPadTo (240 + options.length) := by
  unfold dhcpMessage
  simp only [List.length_append, List.length_cons, List.length_nil, List.length_replicate,
    bytes16_length, bytes32_length, bytes48_length]
  omega

/-- With legal parameters the frame of a DISCOVER fits its slot (R64). -/
theorem discover_fits {p : Params} (h : paramsValid p = true) :
    42 + (dhcpMessage p (discoverOptions p)).length ≤ p.txSlotSize := by
  have hslot := paramsValid_slotBound h
  rw [dhcpMessage_length]
  simp only [slotBound, discoverOptions, List.length_append, List.length_cons,
    List.length_nil] at hslot ⊢
  omega

theorem SentPriority.dhcp_eq {s u : State} {frame : List Byte} (h : SentPriority s u frame) :
    u.dhcp = s.dhcp := by
  obtain ⟨template, c, -, -, -, rfl⟩ := h
  rfl

/-- `DHCP.BOOT` from INIT (R280, R282). -/
theorem dhcpBoot_ok {s : State} {m : List Byte} (hm : dhcpMessage s.par (discoverOptions s.par) = m)
    (hphase : s.dhcp.phase = .init) (hcan : canSend s m.length) :
    ∃ u, SentPriority s u (dhcpFrame s m) ∧
      dhcpBoot s = .ok () { u with dhcp := { s.dhcp with phase := .awaitingOffer } } := by
  obtain ⟨u, hsent, hu⟩ := ipSend_prio_template hcan Config.broadcastMac Config.broadcastIp
    Config.dhcpClientPort Config.dhcpServerPort
  refine ⟨u, hsent, ?_⟩
  rw [dhcpBoot, if_pos hphase, hm, dhcpBroadcast, hu, ← hsent.dhcp_eq]
  rfl

theorem dhcpBoot_outside_init {s : State} (h : s.dhcp.phase ≠ .init) :
    dhcpBoot s = .fault .hostProtocol := if_neg h

theorem engineBoot_not_reset {s : State} (h : isReset s = false) :
    engineBoot s = .fault .hostProtocol := by
  rw [engineBoot, h]
  rfl

/-- The state in which `ENGINE.BOOT` boots the DHCP client: the link is up, with the one wait that
takes, and the timer interrupt is enabled (R421). -/
def linkUp (s : State) : State :=
  { s with
    ring := []
    linkSteps := s.linkSteps + 1
    rxRdptr := s.par.rxStart
    irqMask := false
    draws := afterWaits s 1 }

/-- `ENGINE.BOOT` of a legal reset state whose link comes up is the DHCP boot after it (R421). -/
theorem engineBoot_eq_dhcpBoot {s : State} (hreset : isReset s = true)
    (hpar : paramsValid s.par = true) {n : Nat} (hwaits : waitsComplete s (n + 1)) :
    engineBoot s = dhcpBoot (linkUp s) := by
  rw [engineBoot, hreset, hpar, linkInit, boundedWait_ok hwaits]
  simp only [Bool.and_self, if_true, Res.andThen_ok, done_andThen, sampleTicks_eq]
  congr 1

theorem isReset_phase {s : State} (h : isReset s = true) : s.dhcp.phase = .init := by
  simp only [isReset, Bool.and_eq_true, decide_eq_true_eq] at h
  have hdhcp : s.dhcp = { phase := .init, server := 0, offered := 0 } := by tauto
  rw [hdhcp]

/-! ### Who writes the interrupt mask -/

theorem Atom.irqMask {s t : State} (a : Atom s t) : t.irqMask = s.irqMask := by
  cases a <;> rfl

theorem PhaseMove.irqMask {s t : State} (m : PhaseMove s t) : t.irqMask = s.irqMask := by
  cases m <;> rfl

theorem Terminal.irqMask {s t : State} (h : Terminal s t) : t.irqMask = s.irqMask := by
  cases h <;> rfl

theorem Path.irqMask {b : Bool} {s t : State} (p : Path b s t) : t.irqMask = s.irqMask := by
  induction p with
  | refl => rfl
  | atom _ a ih => exact a.irqMask.trans ih
  | phase _ m ih => exact m.irqMask.trans ih

theorem Starts.irqMask {i : Instr} {s u : State} (h : Starts i s u) (hi : i ≠ .engineBoot) :
    u.irqMask = s.irqMask := by
  cases h with
  | here => rfl
  | tick =>
    obtain ⟨n, hn⟩ := takeTick_writes_ticks s
    rw [hn]
  | session h => cases h; rfl
  | boot hboot => exact absurd hboot hi

/-- Only the boot entry writes `IRQ_MASK` (R34, R386; log 39). -/
theorem exec_irqMask {i : Instr} {s t : State} (h : exec i s = .next t) (hi : i ≠ .engineBoot) :
    t.irqMask = s.irqMask := by
  obtain ⟨u, w, hu, p, rfl | ⟨-, q⟩⟩ := exec_starts_path h
  · exact p.irqMask.trans (hu.irqMask hi)
  · exact q.irqMask.trans (p.irqMask.trans (hu.irqMask hi))

/-- Settles O60: `DHCP.BOOT` is `IP.CREATE` and `IP.SEND` of the DISCOVER, `ENGINE.BOOT` is
`DHCP.BOOT` once the link is up, and no small change writes the mask. -/
theorem bootSendsDiscover : Obligations.BootSendsDiscover := by
  unfold Obligations.BootSendsDiscover
  refine ⟨fun s hrun => ?_, fun i s t => exec_irqMask⟩
  generalize hm : dhcpMessage s.par (discoverOptions s.par) = m
  have hdhcp : exec .dhcpBoot s = (dhcpBoot s).outcome := runMain_running hrun dhcpBoot
  have hengine : exec .engineBoot s = (engineBoot s).outcome := runMain_running hrun engineBoot
  dsimp only
  rw [hdhcp, hengine]
  refine ⟨fun hphase => ?_, fun hphase hcan => ?_, fun hreset => ?_,
    fun hreset hpar hwaits h16 => ?_⟩
  · rw [dhcpBoot_outside_init hphase]
    rfl
  · obtain ⟨u, hsent, hu⟩ := dhcpBoot_ok hm hphase hcan
    exact ⟨u, hsent, congrArg Res.outcome hu⟩
  · rw [engineBoot_not_reset hreset]
    rfl
  · have hfits : 42 + m.length ≤ s.par.txSlotSize := hm ▸ discover_fits hpar
    have hphase := isReset_phase hreset
    rw [engineBoot_eq_dhcpBoot hreset hpar hwaits]
    obtain ⟨u, hsent, hu⟩ := dhcpBoot_ok (s := linkUp s) hm hphase
      ⟨waitsComplete_tail hwaits rfl rfl rfl, hfits, h16⟩
    exact ⟨u, hsent, congrArg Res.outcome hu⟩

end Sys2Proof.Machine
end

section
/-! Proofs of the memory statements (20_memory.md): who writes the destination space, and who writes
the priority slot. Both are relations between the ends of a path of small changes: a destination byte
changes only where the cursor moves past it (`AppendsInside`), and the slot only where the log says
that a new priority frame went out (`PrioSentOrKept`). -/

namespace Sys2Proof.Machine

/-! ### The destination space -/

/-- `t` comes after `s` in one transfer: the region is the same, the cursor has not gone back, and a
destination byte that changed lies in the region and was passed by the cursor (R61, R72, R344). -/
structure AppendsInside (s t : State) : Prop where
  base : t.tftp.destBase = s.tftp.destBase
  limit : t.tftp.destLimit = s.tftp.destLimit
  cursor : s.tftp.cursor ≤ t.tftp.cursor
  written : ∀ a, Memory.read t.dest a ≠ Memory.read s.dest a →
    s.tftp.destBase ≤ a ∧ a < s.tftp.destLimit ∧ s.tftp.cursor ≤ a ∧ a < t.tftp.cursor

theorem AppendsInside.of_same {s t : State} (hdest : t.dest = s.dest)
    (hbase : t.tftp.destBase = s.tftp.destBase) (hlimit : t.tftp.destLimit = s.tftp.destLimit)
    (hcursor : t.tftp.cursor = s.tftp.cursor) : AppendsInside s t :=
  ⟨hbase, hlimit, hcursor.ge, fun _ hne => absurd (by rw [hdest]) hne⟩

theorem AppendsInside.refl (s : State) : AppendsInside s s := .of_same rfl rfl rfl rfl

/-- A byte that changed between the ends changed in one of the two parts. -/
theorem AppendsInside.trans {s t u : State} (h : AppendsInside s t) (k : AppendsInside t u) :
    AppendsInside s u where
  base := k.base.trans h.base
  limit := k.limit.trans h.limit
  cursor := h.cursor.trans k.cursor
  written a hne := by
    by_cases hst : Memory.read t.dest a = Memory.read s.dest a
    · obtain ⟨hbase, hlimit, hlow, hhigh⟩ := k.written a (hst ▸ hne)
      rw [h.base] at hbase
      rw [h.limit] at hlimit
      exact ⟨hbase, hlimit, h.cursor.trans hlow, hhigh⟩
    · obtain ⟨hbase, hlimit, hlow, hhigh⟩ := h.written a hst
      exact ⟨hbase, hlimit, hlow, hhigh.trans_le k.cursor⟩

/-- Only a delivery writes destination bytes, and it moves the cursor past them (R344). -/
theorem Atom.appendsInside {s t : State} (m : Atom s t) : AppendsInside s t := by
  cases m with
  | append bs total hlimit hbase =>
    refine ⟨rfl, rfl, Nat.le_add_right _ _, fun a hne => ?_⟩
    simp only [setTftp_dest, setTftp_tftp, setDest_dest, read_write] at hne ⊢
    by_cases hin : s.tftp.cursor ≤ a ∧ a < s.tftp.cursor + bs.length
    · obtain rfl | hbase := hbase
      · simp only [List.length_nil] at hin
        omega
      · exact ⟨hbase.trans hin.1, hin.2.trans_le hlimit, hin⟩
    · exact absurd (if_neg hin) hne
  | tftp v hport hbase hlimit hactive hcursor => exact .of_same rfl hbase hlimit hcursor
  | _ => exact .of_same rfl rfl rfl rfl

theorem PhaseMove.appendsInside {s t : State} (m : PhaseMove s t) : AppendsInside s t := by
  cases m <;> exact .of_same rfl rfl rfl rfl

theorem BootStart.appendsInside {s t : State} (h : BootStart s t) : AppendsInside s t := by
  cases h
  exact .of_same rfl rfl rfl rfl

theorem Terminal.appendsInside {s t : State} (h : Terminal s t) : AppendsInside s t := by
  cases h <;> exact .of_same rfl rfl rfl rfl

theorem Path.appendsInside {b : Bool} {s t : State} (p : Path b s t) : AppendsInside s t := by
  induction p with
  | refl b s => exact .refl s
  | atom _ a ih => exact ih.trans a.appendsInside
  | phase _ m ih => exact ih.trans m.appendsInside

theorem takeTick_appendsInside (s : State) : AppendsInside s (takeTick s) := by
  obtain ⟨n, hn⟩ := takeTick_writes_ticks s
  rw [hn]
  exact .of_same rfl rfl rfl rfl

/-- A path, and perhaps the end of the session after it. -/
theorem appendsInside_of_path_or_terminal {b : Bool} {s t : State}
    (h : Path b s t ∨ ∃ w, Path b s w ∧ Terminal w t) : AppendsInside s t := by
  obtain p | ⟨w, p, q⟩ := h
  · exact p.appendsInside
  · exact p.appendsInside.trans q.appendsInside

/-- A read request names a new region and writes no byte of it; every other instruction keeps the
region (R330, R344). -/
theorem exec_dest {i : Instr} {s t : State} (h : exec i s = .next t) :
    t.dest = s.dest ∨ AppendsInside s t := by
  obtain ⟨-, rfl⟩ | ⟨-, hdest, -⟩ | ⟨-, -, u, hu, hp⟩ | ⟨-, hp⟩ := exec_moves h
  · exact .inr (takeTick_appendsInside s)
  · exact .inl hdest
  · exact .inr (hu.appendsInside.trans (appendsInside_of_path_or_terminal hp))
  · exact .inr (appendsInside_of_path_or_terminal hp)

/-- Settles O11: an instruction leaves the destination space as it is, or appends to it inside the
region. -/
theorem destinationWritesStayInside : Obligations.DestinationWritesStayInside := by
  unfold Obligations.DestinationWritesStayInside
  intro i s t a h hne
  obtain hdest | happ := exec_dest h
  · exact absurd (by rw [hdest]) hne
  · exact happ.written a hne

/-! ### The priority slot -/

/-- With legal parameters the two transmit slots share no byte (R62). -/
theorem paramsValid_slots_apart {p : Params} (h : paramsValid p = true) :
    p.txRegStart + p.txSlotSize ≤ p.txPrioStart ∨ p.txPrioStart + p.txSlotSize ≤ p.txRegStart := by
  simp only [paramsValid, apart, Bool.and_eq_true, Bool.or_eq_true, decide_eq_true_eq] at h
  tauto

/-- The bytes of the priority slot are the same in both states. -/
def PrioSlotKept (s t : State) : Prop :=
  ∀ a, s.par.txPrioStart ≤ a → a < s.par.txPrioStart + s.par.txSlotSize →
    Memory.read t.ctrl a = Memory.read s.ctrl a

theorem PrioSlotKept.of_sameCtrl {s t : State} (h : t.ctrl = s.ctrl) : PrioSlotKept s t :=
  fun _ _ _ => by rw [h]

theorem PrioSlotKept.trans {s t u : State} (hpar : t.par = s.par) (h : PrioSlotKept s t)
    (k : PrioSlotKept t u) : PrioSlotKept s u := fun a hlow hhigh =>
  (k a (hpar ▸ hlow) (hpar ▸ hhigh)).trans (h a hlow hhigh)

/-- A frame that fits the regular slot reaches no byte of the priority slot. -/
theorem prioSlotKept_of_write_reg {s : State} (hv : paramsValid s.par = true) {bs : List Byte}
    (hbs : bs.length ≤ s.par.txSlotSize) :
    PrioSlotKept s (s.setCtrl (Memory.write s.ctrl s.par.txRegStart bs)) := by
  intro a hlow hhigh
  have hapart := paramsValid_slots_apart hv
  rw [setCtrl_ctrl, read_write, if_neg (by omega)]

/-- What the log gained from `s` to `t` names a new priority frame, or the priority slot is kept
(R79). -/
def PrioSentOrKept (s t : State) : Prop :=
  ∃ new, t.obs = s.obs ++ new ∧ ((∃ bytes, .tx .prio bytes false ∈ new) ∨ PrioSlotKept s t)

theorem PrioSentOrKept.of_sameLog {s t : State} (hobs : t.obs = s.obs) (h : PrioSlotKept s t) :
    PrioSentOrKept s t := ⟨[], by simpa using hobs, .inr h⟩

theorem PrioSentOrKept.of_same {s t : State} (hobs : t.obs = s.obs) (hctrl : t.ctrl = s.ctrl) :
    PrioSentOrKept s t := .of_sameLog hobs (.of_sameCtrl hctrl)

theorem PrioSentOrKept.refl (s : State) : PrioSentOrKept s s := .of_same rfl rfl

theorem PrioSentOrKept.trans {s t u : State} (hpar : t.par = s.par) (h : PrioSentOrKept s t)
    (k : PrioSentOrKept t u) : PrioSentOrKept s u := by
  obtain ⟨n, hn, hst⟩ := h
  obtain ⟨m, hm, htu⟩ := k
  refine ⟨n ++ m, by rw [hm, hn, List.append_assoc], ?_⟩
  obtain ⟨bytes, hsent⟩ | hst := hst
  · exact .inl ⟨bytes, List.mem_append_left m hsent⟩
  obtain ⟨bytes, hsent⟩ | htu := htu
  · exact .inl ⟨bytes, List.mem_append_right n hsent⟩
  · exact .inr (hst.trans hpar htu)

/-- Only a priority send writes the priority slot, and the log names its frame. -/
theorem Atom.prioSentOrKept {s t : State} (hv : paramsValid s.par = true) (m : Atom s t) :
    PrioSentOrKept s t := by
  cases m with
  | ctrlReg bs hbs => exact .of_sameLog rfl (prioSlotKept_of_write_reg hv hbs)
  | sendPrio bs hbs => exact ⟨[.tx .prio bs false], rfl, .inl ⟨bs, List.mem_singleton_self _⟩⟩
  | note e hfatal htransfer => exact ⟨[e], rfl, .inr (.of_sameCtrl rfl)⟩
  | _ => exact .of_same rfl rfl

theorem PhaseMove.prioSentOrKept {s t : State} (m : PhaseMove s t) : PrioSentOrKept s t := by
  cases m with
  | boot hphase => exact .of_same rfl rfl
  | offer hphase => exact .of_same rfl rfl
  | bind yi bcast hphase hyi => exact ⟨[_], rfl, .inr (.of_sameCtrl rfl)⟩

theorem Starts.prioSentOrKept {i : Instr} {s u : State} (h : Starts i s u) : PrioSentOrKept s u := by
  cases h with
  | here => exact .refl s
  | tick =>
    obtain ⟨n, hn⟩ := takeTick_writes_ticks s
    rw [hn]
    exact .of_same rfl rfl
  | session h => cases h; exact .of_same rfl rfl
  | boot hi h => cases h; exact .of_same rfl rfl

theorem Path.prioSentOrKept {b : Bool} {s t : State} (hv : paramsValid s.par = true)
    (p : Path b s t) : PrioSentOrKept s t := by
  induction p with
  | refl b s => exact .refl s
  | atom p a ih => exact (ih hv).trans p.grows.par (a.prioSentOrKept (p.grows.par ▸ hv))
  | phase p m ih => exact (ih hv).trans p.grows.par m.prioSentOrKept

/-- A transition that does not end the session sends a new priority frame or keeps the slot. -/
theorem exec_prioSentOrKept {i : Instr} {s t : State} (hv : paramsValid s.par = true)
    (h : exec i s = .next t) (hrun : t.run = .running) : PrioSentOrKept s t := by
  obtain ⟨u, w, hu, p, rfl | ⟨-, q⟩⟩ := exec_starts_path h
  · exact hu.prioSentOrKept.trans hu.grows.par (p.prioSentOrKept (hu.grows.par ▸ hv))
  · exact absurd hrun q.not_running

/-- Settles O14: what the log gained is `new`, which names no new priority frame, so the slot is kept.
-/
theorem prioritySlotKeptBetweenSends : Obligations.PrioritySlotKeptBetweenSends := by
  unfold Obligations.PrioritySlotKeptBetweenSends
  intro i s t new hv h hrun hnew hnone
  obtain ⟨n, hn, ⟨bytes, hsent⟩ | hkept⟩ := exec_prioSentOrKept hv h hrun
  · obtain rfl : n = new := List.append_cancel_left (hn.symm.trans hnew)
    exact absurd hsent (hnone bytes)
  · exact hkept

end Sys2Proof.Machine
end

section
/-! Proofs of the decoding statements (30_encoding.md R90 to R108): each operand's reader takes off
exactly the bytes its writer put (`Reads`), so each operation's reader, field by field, gives the
operation back; a wire code reads back as its 16 bits, and the "any other" codes reach the last arm. -/

namespace Sys2Proof.Machine

/-! ### Operands read back -/

/-- A reader takes a value off the front of a byte string that begins with `bs`, and leaves the rest. -/
def Reads {α : Type} (take : List Byte → Option (α × List Byte)) (bs : List Byte) (x : α) : Prop :=
  ∀ rest, take (bs ++ rest) = some (x, rest)

section
variable {α β : Type} {take : List Byte → Option (α × List Byte)} {bs : List Byte} {x : α}

/-- The last operand leaves nothing. -/
theorem Reads.last (h : Reads take bs x) : take bs = some (x, []) := by
  simpa using h []

/-- After an operand that reads back, the next reader starts at the bytes behind it. -/
theorem Reads.bind (h : Reads take bs x) (k : α × List Byte → Option β) (rest : List Byte) :
    (take (bs ++ rest)).bind k = k (x, rest) := by
  rw [h rest, Option.bind_some]

theorem Reads.bind_last (h : Reads take bs x) (k : α × List Byte → Option β) :
    (take bs).bind k = k (x, []) := by
  rw [h.last, Option.bind_some]

/-- A value made from what a reader found reads back as well. -/
theorem Reads.map (h : Reads take bs x) (f : α → β) {y : β} (hy : f x = y) :
    Reads (fun bs => (take bs).map fun p => (f p.1, p.2)) bs y := fun rest => by
  simp only [h rest, Option.map_some, hy]

end

theorem reads_takeBytes {k : Nat} {bs : List Byte} (h : bs.length = k) :
    Reads (takeBytes k) bs bs := fun rest => by
  subst h
  simp [takeBytes]

theorem reads_putNat {n : Nat} (h : fitsOperand n) : Reads takeNat (putNat n) n := by
  have hn : natBE (putNat n) = n := (natBE_bytesBE 4 n).trans (Nat.mod_eq_of_lt h)
  exact (reads_takeBytes (bytesBE_length 4 n)).map natBE hn

theorem reads_bytes16 (w : Word16) : Reads takeWord16 (bytes16 w) w :=
  (reads_takeBytes (bytes16_length w)).map word16 (word16_bytes16 w)

theorem reads_bytes32 (w : Word32) : Reads takeWord32 (bytes32 w) w :=
  (reads_takeBytes (bytes32_length w)).map word32 (word32_bytes32 w)

theorem reads_bytes48 (m : Mac) : Reads takeMac (bytes48 m) m :=
  (reads_takeBytes (bytes48_length m)).map word48 (word48_bytes48 m)

theorem reads_bytes96 (h : Pseudo) : Reads takePseudo (bytes96 h) h :=
  (reads_takeBytes (bytes96_length h)).map word96 (word96_bytes96 h)

theorem reads_putFlag (b : Bool) : Reads takeFlag (putFlag b) b := fun _ => by
  cases b <;> rfl

theorem reads_putSlot (slot : Slot) : Reads takeSlot (putSlot slot) slot := fun _ => by
  cases slot <;> rfl

theorem reads_putHostSpace (sp : HostSpace) : Reads takeHostSpace (putHostSpace sp) sp := fun _ => by
  cases sp <;> rfl

/-- The two plain spaces are their selector; a pseudo-header stands behind its own. -/
theorem reads_putSumSpace (sp : SumSpace) : Reads takeSumSpace (putSumSpace sp) sp := by
  cases sp with
  | buf => exact fun _ => rfl
  | tpl => exact fun _ => rfl
  | pseudo h => exact (reads_bytes96 h).map SumSpace.pseudo rfl

theorem reads_putOptionalPseudo (p : Option Pseudo) :
    Reads takeOptionalPseudo (putOptionalPseudo p) p := by
  cases p with
  | none => exact fun _ => rfl
  | some h => exact (reads_bytes96 h).map some rfl

/-- A string is as long as the number before it says. -/
theorem reads_putString {str : List Byte} (h : fitsOperand str.length) :
    Reads takeString (putString str) str := fun rest => by
  rw [takeString, putString, List.append_assoc, (reads_putNat h).bind]
  exact reads_takeBytes rfl rest

/-! ### The operations with operands (R108) -/

theorem takeAccumulate_put (sp : SumSpace) {off n : Nat} (ho : fitsOperand off)
    (hn : fitsOperand n) :
    takeAccumulate (putSumSpace sp ++ (putNat off ++ putNat n)) = some (.ckAccumulate sp off n) := by
  rw [takeAccumulate, (reads_putSumSpace sp).bind, (reads_putNat ho).bind, (reads_putNat hn).bind_last]

theorem takeAccumulateStream_put {src off n : Nat} (hs : fitsOperand src) (ho : fitsOperand off)
    (hn : fitsOperand n) :
    takeAccumulateStream (putNat src ++ (putNat off ++ putNat n)) =
      some (.ckAccumulateStream src .buf off n) := by
  rw [takeAccumulateStream, (reads_putNat hs).bind, (reads_putNat ho).bind,
    (reads_putNat hn).bind_last]

theorem takeValidate_put (sp : HostSpace) {off n : Nat} (p : Option Pseudo) (ho : fitsOperand off)
    (hn : fitsOperand n) :
    takeValidate (putHostSpace sp ++ (putNat off ++ (putNat n ++ putOptionalPseudo p))) =
      some (.ckValidate sp off n p) := by
  rw [takeValidate, (reads_putHostSpace sp).bind, (reads_putNat ho).bind, (reads_putNat hn).bind,
    (reads_putOptionalPseudo p).bind_last]

theorem takeInstall_put (sp : HostSpace) {off n field : Nat} (ho : fitsOperand off)
    (hn : fitsOperand n) (hf : fitsOperand field) :
    takeInstall (putHostSpace sp ++ (putNat off ++ (putNat n ++ putNat field))) =
      some (.ckInstall sp off n field) := by
  rw [takeInstall, (reads_putHostSpace sp).bind, (reads_putNat ho).bind, (reads_putNat hn).bind,
    (reads_putNat hf).bind_last]

theorem takeTransmit_put (slot : Slot) {len : Nat} (hl : fitsOperand len) :
    takeTransmit (putSlot slot ++ putNat len) = some (.ethTransmit slot len) := by
  rw [takeTransmit, (reads_putSlot slot).bind, (reads_putNat hl).bind_last]

theorem takeCreate_put (m : Mac) (a : Word32) (src dst len : Word16) :
    takeCreate (bytes48 m ++ (bytes32 a ++ (bytes16 src ++ (bytes16 dst ++ bytes16 len)))) =
      some (.ipCreate m a src dst len) := by
  rw [takeCreate, (reads_bytes48 m).bind, (reads_bytes32 a).bind, (reads_bytes16 src).bind,
    (reads_bytes16 dst).bind, (reads_bytes16 len).bind_last]

theorem takeSend_put (slot : Slot) {payload : List Byte} (hp : fitsOperand payload.length) :
    takeSend (putSlot slot ++ putString payload) = some (.ipSend slot payload) := by
  rw [takeSend, (reads_putSlot slot).bind, (reads_putString hp).bind_last]

theorem takeReadRequest_put {name : List Byte} {base limit : Nat} (hook verify : Bool)
    (hf : fitsOperand name.length) (hb : fitsOperand base) (hl : fitsOperand limit) :
    takeReadRequest (putString name ++ (putNat base ++ (putNat limit ++
      (putFlag hook ++ putFlag verify)))) = some (.tftpReadRequest name base limit hook verify) := by
  rw [takeReadRequest, (reads_putString hf).bind, (reads_putNat hb).bind, (reads_putNat hl).bind,
    (reads_putFlag hook).bind, (reads_putFlag verify).bind_last]

/-! ### Wire codes (R92 to R104) -/

theorem decode_wireWord_eth (w : Word16) : decode (wireWord .eth w) = .ok (decodeEthertype w) :=
  congrArg (Except.ok ∘ decodeEthertype) (word16_bytes16 w)

theorem decode_wireWord_udp (w : Word16) : decode (wireWord .udp w) = .ok (decodePort w) :=
  congrArg (Except.ok ∘ decodePort) (word16_bytes16 w)

theorem decode_wireWord_tftp (w : Word16) : decode (wireWord .tftp w) = .ok (decodeTftpOpcode w) :=
  congrArg (Except.ok ∘ decodeTftpOpcode) (word16_bytes16 w)

theorem decode_wireWord_arp (w : Word16) : decode (wireWord .arp w) = decodeArpOperation w :=
  congrArg decodeArpOperation (word16_bytes16 w)

theorem decodeEthertype_other {et : Word16} (ha : et ≠ 0x0806) (hi : et ≠ 0x0800) :
    decodeEthertype et = .ethUnknown et := by
  rw [decodeEthertype, if_neg ha, if_neg hi]

theorem decodePort_other {port : Word16} (h67 : port ≠ 67) (h68 : port ≠ 68) (h69 : port ≠ 69) :
    decodePort port = .udpTftpClient port := by
  rw [decodePort, if_neg h67, if_neg h68, if_neg h69]

theorem decodeTftpOpcode_other {op : Word16} (h1 : op ≠ 1) (h3 : op ≠ 3) (h4 : op ≠ 4)
    (h5 : op ≠ 5) : decodeTftpOpcode op = .tftpOther op := by
  rw [decodeTftpOpcode, if_neg h1, if_neg h3, if_neg h4, if_neg h5]

/-- Each arm but the last is for a code that R102 lists. -/
theorem decodeOptionCode_other {code : Byte} (h : code ∉ listedOptions) :
    decodeOptionCode code = .optUnknown code := by
  unfold decodeOptionCode
  split
  case h_12 => rfl
  all_goals exact absurd (by decide) h

/-! ### Every instruction -/

/-- Decoding the encoding of a well-formed instruction gives it back: an instruction without operands
by its code, the others by the lemma that reads its operands back. -/
theorem decode_encode {i : Instr} (h : i.wellFormed = true) : decode (encode i) = .ok i := by
  cases i with
  | ckAccumulate sp off n =>
    simp only [Instr.wellFormed, Bool.and_eq_true, decide_eq_true_eq] at h
    obtain ⟨ho, hn⟩ := h
    exact congrArg (withOperands 0x11) (takeAccumulate_put sp ho hn)
  | ckAccumulateStream src dst off n =>
    cases dst
    simp only [Instr.wellFormed, Bool.and_eq_true, decide_eq_true_eq] at h
    obtain ⟨⟨hs, ho⟩, hn⟩ := h
    exact congrArg (withOperands 0x12) (takeAccumulateStream_put hs ho hn)
  | ckValidate sp off n p =>
    simp only [Instr.wellFormed, Bool.and_eq_true, decide_eq_true_eq] at h
    obtain ⟨ho, hn⟩ := h
    exact congrArg (withOperands 0x14) (takeValidate_put sp p ho hn)
  | ckInstall sp off n field =>
    simp only [Instr.wellFormed, Bool.and_eq_true, decide_eq_true_eq] at h
    obtain ⟨⟨ho, hn⟩, hf⟩ := h
    exact congrArg (withOperands 0x15) (takeInstall_put sp ho hn hf)
  | ethAdvance next =>
    have hr := (reads_putNat (of_decide_eq_true h)).last
    exact congrArg (fun r => withOperands 0x24 (r.map fun p => .ethAdvance p.1)) hr
  | ethTransmit slot len =>
    exact congrArg (withOperands 0x25) (takeTransmit_put slot (of_decide_eq_true h))
  | ethCheckRetransmit now =>
    have hr := (reads_putNat (of_decide_eq_true h)).last
    exact congrArg (fun r => withOperands 0x26 (r.map fun p => .ethCheckRetransmit p.1)) hr
  | ipCreate m a src dst len => exact congrArg (withOperands 0x42) (takeCreate_put m a src dst len)
  | ipReply len =>
    exact congrArg (fun r => withOperands 0x43 (r.map fun p => .ipReply p.1)) (reads_bytes16 len).last
  | ipSend slot payload =>
    exact congrArg (withOperands 0x44) (takeSend_put slot (of_decide_eq_true h))
  | tftpReadRequest name base limit hook verify =>
    simp only [Instr.wellFormed, Bool.and_eq_true, decide_eq_true_eq] at h
    obtain ⟨⟨hf, hb⟩, hl⟩ := h
    exact congrArg (withOperands 0x60) (takeReadRequest_put hook verify hf hb hl)
  | ethUnknown et =>
    simp only [Instr.wellFormed, Bool.and_eq_true, decide_eq_true_eq] at h
    obtain ⟨harp, hipv4⟩ := h
    rw [encode, decode_wireWord_eth, decodeEthertype_other harp hipv4]
  | udpTftpClient port =>
    simp only [Instr.wellFormed, Bool.and_eq_true, decide_eq_true_eq] at h
    obtain ⟨⟨h67, h68⟩, h69⟩ := h
    rw [encode, decode_wireWord_udp, decodePort_other h67 h68 h69]
  | optUnknown code =>
    exact congrArg Except.ok (decodeOptionCode_other (of_decide_eq_true h))
  | tftpOther op =>
    simp only [Instr.wellFormed, Bool.and_eq_true, decide_eq_true_eq] at h
    obtain ⟨⟨⟨h1, h3⟩, h4⟩, h5⟩ := h
    rw [encode, decode_wireWord_tftp, decodeTftpOpcode_other h1 h3 h4 h5]
  | _ => rfl

/-- Settles O1: `decode_encode`, by cases on the instruction. -/
theorem decodeInvertsEncode : Obligations.DecodeInvertsEncode := fun _ h => decode_encode h

/-- Settles O2: each word but one is its instruction's own encoding; the option unit with its length
byte has the code of `OPT.BROADCAST_ADDRESS`, and bytes after the code do not change it. -/
theorem sampleWordsDecode : Obligations.SampleWordsDecode :=
  ⟨decode_encode (i := .ckFold) rfl, decode_encode (i := .ethAdvance 0x46) rfl,
    decode_encode (i := .fatal 7) rfl, decode_encode (i := .ethArp) rfl,
    decode_encode (i := .ethUnknown 0x86dd) rfl, decode_encode (i := .arpReply) rfl,
    decode_encode (i := .ipv4Udp) rfl, decode_encode (i := .udpDhcpClient) rfl,
    decode_encode (i := .dhcpAck) rfl, rfl, decode_encode (i := .tftpData) rfl,
    decode_encode (i := .tftpOther 2) rfl⟩

end Sys2Proof.Machine
end

section
/-! Proof of the statement about codes the engine does not accept (30_encoding.md R110): the handlers
that return at once on such a code, and the two steps that run no instruction. -/

namespace Sys2Proof.Machine

/-! ### Handlers that answer nothing -/

/-- Only a request is answered (R220). -/
theorem arpHandleBy_not_request {oper : Word16} (h : oper ≠ 1) (s : State) :
    arpHandleBy oper s = done s := by
  have hrefused : arpAccepted oper s = false := by
    simp only [arpAccepted, decide_eq_false h, Bool.and_false, Bool.false_and]
  rw [arpHandleBy, hrefused, if_neg Bool.false_ne_true]

/-- Of the ethertypes only ARP and IPv4 have a handler (R175). -/
theorem dispatchBy_other {et : Word16} (ha : et ≠ 0x0806) (hi : et ≠ 0x0800) (s : State) :
    dispatchBy et s = done s := by
  rw [dispatchBy, if_neg ha, if_neg hi, ite_self, ite_self]

/-- Every row of R286 is for type 2, for type 5 or for no type (R293). -/
theorem dhcpClassify_other {type : Byte} (h2 : type ≠ 2) (h5 : type ≠ 5) (bcast : Option Word32)
    (yi : Word32) (s : State) : dhcpClassify (some type) bcast yi s = done s := by
  rw [dhcpClassify, if_neg fun ⟨_, ht, _⟩ => h2 (Option.some.inj ht),
    if_neg fun ⟨_, _, ht, _⟩ => h5 (Option.some.inj ht), if_neg fun ⟨_, _, ht, _⟩ => nomatch ht]

/-- So a message of another type changes nothing, whether it is dropped or ignored. -/
theorem dhcpReceiveAs_other {type : Byte} (h2 : type ≠ 2) (h5 : type ≠ 5) (s : State) :
    dhcpReceiveAs (some type) s = done s := by
  unfold dhcpReceiveAs dhcpReceiveBy
  cases udpData s with
  | none => rfl
  | some d => simp only [dhcpClassify_other h2 h5, ite_self]

/-- A transition whose operation only returns ends in the state it returns in. -/
theorem runMain_done {s t : State} (hrun : s.run = .running) {f : State → Res Unit}
    (hf : f s = done t) : runMain s f = .next t := by
  rw [runMain_running hrun, hf, outcome_done]

/-! ### Units that are no instruction -/

/-- A wire code with no row is taken off the script and dropped (R110). -/
theorem step_of_noRow {s : State} {w : CodeWord} {rest : List Event} {f : Format} {code : Nat}
    (hrun : s.run = .running) (hs : s.script = .coded w :: rest)
    (hw : decode w = .error (.noRow f code)) : step s = .next (s.setScript rest) := by
  simp only [step, fetch, hs, hw]
  exact runMain_done (s := s.setScript rest) hrun rfl

theorem step_of_unknownOperation {s : State} {w : CodeWord} {rest : List Event} {code : Byte}
    (hs : s.script = .coded w :: rest) (hw : decode w = .error (.unknownOperation code)) :
    step s = .refused (.undecodable (.unknownOperation code)) := by
  simp only [step, fetch, hs, hw]

theorem decodeArpOperation_other {oper : Word16} (h1 : oper ≠ 1) (h2 : oper ≠ 2) :
    decodeArpOperation oper = .error (.noRow .arp oper.toNat) := by
  rw [decodeArpOperation, if_neg h1, if_neg h2]

theorem decodeProtocol_other {proto : Byte} (h : proto ≠ 17) :
    decodeProtocol proto = .error (.noRow .ipv4 proto.toNat) := if_neg h

/-- Each arm but the last is for a code that R108 lists. -/
theorem decodeOp_unlisted {code : Byte} (h : code ∉ operationCodes) (operands : List Byte) :
    decodeOp code operands = .error (.unknownOperation code) := by
  unfold decodeOp
  split
  case h_30 => rfl
  all_goals exact absurd (by decide) h

/-- Settles O4: a handler that returns at once for each code of the first clause, and for the others
what the decoder answers to the word. -/
theorem unacceptedCodesDoNothing : Obligations.UnacceptedCodesDoNothing := by
  unfold Obligations.UnacceptedCodesDoNothing
  refine ⟨fun s i hrun hi => ?_, fun s oper rest hrun h1 h2 hs => ?_,
    fun s proto rest hrun h hs => ?_, fun s code operands rest h hs => ?_⟩
  · obtain hi | ⟨et, rfl, hwf⟩ := hi
    · simp only [List.mem_cons, List.not_mem_nil, or_false] at hi
      obtain rfl | rfl | rfl | rfl | rfl | rfl | rfl := hi
      · exact runMain_done hrun (arpHandleBy_not_request (by decide) s)
      all_goals exact runMain_done hrun (dhcpReceiveAs_other (by decide) (by decide) s)
    · simp only [Instr.wellFormed, Bool.and_eq_true, decide_eq_true_eq] at hwf
      obtain ⟨harp, hipv4⟩ := hwf
      exact runMain_done hrun (dispatchBy_other harp hipv4 s)
  · exact step_of_noRow hrun hs ((decode_wireWord_arp oper).trans (decodeArpOperation_other h1 h2))
  · exact step_of_noRow hrun hs (decodeProtocol_other h)
  · exact step_of_unknownOperation hs (decodeOp_unlisted h operands)

end Sys2Proof.Machine
end

section
/-! Proof of the statement about the pseudo-operations (30_encoding.md R109): what each checksum
instruction does to a running state, said once, and the two expansions as chains of those. -/

namespace Sys2Proof.Machine

/-! ### The checksum instructions of a running state -/

section
variable {s : State}

theorem exec_ckReset (hrun : s.run = .running) : exec .ckReset s = .next (s.setCk ckZero) :=
  if_pos hrun

theorem exec_ckAccumulate (hrun : s.run = .running) (hinit : s.ck.init = true) (sp : SumSpace)
    (off n : Nat) :
    exec (.ckAccumulate sp off n) s = .next (s.setCk (ckSum s.ck (sumBytes s sp off n))) := by
  refine runMain_done hrun ?_
  rw [ckAccumulateRange, ckAccumulate, if_pos hinit]

theorem exec_ckValidate (hrun : s.run = .running) (sp : HostSpace) (off n : Nat)
    (pseudo : Option Pseudo) :
    exec (.ckValidate sp off n pseudo) s =
      let c := ckOver ((pseudo.map bytes96).getD []) (hostBytes s sp off n)
      .next ((s.setCk c).setResult (.flag (decide (ckFold c = 0xffff)))) :=
  if_pos hrun

theorem exec_ckInstall (hrun : s.run = .running) (sp : HostSpace) (off n field : Nat) :
    exec (.ckInstall sp off n field) s = .next (ckInstall sp off n field s) :=
  if_pos hrun

end

/-! ### The ranges summed -/

/-- A host space as `CK.ACCUMULATE` names it. -/
def sumSpaceOf : HostSpace → SumSpace
  | .buf => .buf
  | .tpl => .tpl

theorem sumBytes_sumSpaceOf (s : State) (sp : HostSpace) (off n : Nat) :
    sumBytes s (sumSpaceOf sp) off n = hostBytes s sp off n := by
  cases sp <;> rfl

/-- The 12 bytes of a pseudo-header string are the pseudo-header (R98). -/
theorem sumBytes_pseudo (s : State) (h : Pseudo) : sumBytes s (.pseudo h) 0 12 = bytes96 h := by
  refine List.ext_getElem (by simp [sumBytes]) fun k hk _ => ?_
  have hk : k < (bytes96 h).length := by simpa [sumBytes] using hk
  simp [sumBytes, pseudoByte, List.getD, List.getElem?_eq_getElem hk]

@[simp] theorem hostBytes_setCk (s : State) (c : Ck) (sp : HostSpace) (off n : Nat) :
    hostBytes (s.setCk c) sp off n = hostBytes s sp off n := by
  cases sp <;> rfl

/-- Summing a range of a space, whatever the accumulator was reset or summed to. -/
theorem exec_ckAccumulate_setCk {s : State} {c : Ck} (hrun : s.run = .running) (hc : c.init = true)
    (sp : HostSpace) (off n : Nat) :
    exec (.ckAccumulate (sumSpaceOf sp) off n) (s.setCk c) =
      .next (s.setCk (ckSum c (hostBytes s sp off n))) := by
  rw [exec_ckAccumulate (s := s.setCk c) hrun hc, sumBytes_sumSpaceOf, hostBytes_setCk]
  rfl

/-- Summing a pseudo-header after a reset. -/
theorem exec_ckAccumulate_pseudo {s : State} (hrun : s.run = .running) (h : Pseudo) :
    exec (.ckAccumulate (.pseudo h) 0 12) (s.setCk ckZero) =
      .next (s.setCk (ckSum ckZero (bytes96 h))) := by
  rw [exec_ckAccumulate (s := s.setCk ckZero) hrun rfl, sumBytes_pseudo]
  rfl

/-! ### The expansions -/

/-- `CK.INSTALL` of a range: the field zeroed, a reset, the sum, the complement stored (R145). -/
theorem ckInstall_expands {s : State} (hrun : s.run = .running) (sp : HostSpace)
    (off n field : Nat) :
    ∃ a b : State,
      exec .ckReset (hostWrite sp field [0, 0] s) = .next a ∧
      exec (.ckAccumulate (sumSpaceOf sp) off n) a = .next b ∧
      exec (.ckInstall sp off n field) s =
        .next (setSpace b sp (writeInside (spaceSize s.par sp) (spaceMem b sp) field
          (bytes16 (~~~ ckFold b.ck)))) := by
  have hz : (hostWrite sp field [0, 0] s).run = .running := by cases sp <;> exact hrun
  refine ⟨_, _, exec_ckReset hz, exec_ckAccumulate_setCk hz rfl sp off n, ?_⟩
  rw [exec_ckInstall hrun]
  cases sp <;> rfl

/-- Settles O23: the reset, the sums and the validation or installation, each by its own lemma. -/
theorem pseudoOperationsExpand : Obligations.PseudoOperationsExpand := by
  unfold Obligations.PseudoOperationsExpand
  refine ⟨fun s sp off n pseudo hrun => ?_, fun s off n field hrun => ⟨?_, ?_⟩⟩
  · refine ⟨s.setCk ckZero, s.setCk (ckSum ckZero ((pseudo.map bytes96).getD [])),
      s.setCk (ckOver _ (hostBytes s sp off n)), exec_ckReset hrun, ?_, ?_,
      exec_ckValidate hrun sp off n pseudo⟩
    · cases pseudo with
      | none => rfl
      | some h => exact exec_ckAccumulate_pseudo hrun h
    · have hsum := exec_ckAccumulate_setCk hrun (ckSum_init ((pseudo.map bytes96).getD []) ckZero)
        sp off n
      cases sp <;> exact hsum
  · exact ckInstall_expands hrun .buf off n field
  · exact ckInstall_expands hrun .tpl off n field

end Sys2Proof.Machine
end

section
/-! Proofs of the checksum statements (41_checksum.md R139 to R149). The loop of R141 by its index is
the sum over the bytes it reads; the fold is its closed form, so what the fold does not depend on is
what the sum of the words does not depend on; and each instruction of a running state is said once. -/

namespace Sys2Proof.Machine

/-- An operation of MAIN that completes began in a running state (R21). -/
theorem running_of_exec_next {i : Instr} {s t : State} (h : exec i s = .next t)
    (htick : i ≠ .irqTick) (hread : ∀ f b l hook verify, i ≠ .tftpReadRequest f b l hook verify) :
    s.run = .running := by
  by_contra hended
  rw [exec_ended hended htick hread] at h
  cases h

/-! ### The addition step (R139) and the fold (R143) -/

/-- Settles O15: a sum of two words and a carry bit, cut at bit 16. -/
theorem checksumAddsWithCarry : Obligations.ChecksumAddsWithCarry := by
  unfold Obligations.ChecksumAddsWithCarry
  exact fun c w => ⟨BitVec.toNat_ofNat _ _, decide_eq_true_iff, rfl⟩

/-- A value is at most one carry past 16 bits. -/
theorem ckValue_le (c : Ck) : ckValue c ≤ 65536 := by
  have hsum := c.sum.isLt
  unfold ckValue carryIn
  split <;> omega

/-- The fold adds the residual carry, and the carry of that addition (R143). -/
theorem ckFold_eq (c : Ck) : ckFold c =
    BitVec.ofNat 16 (if ckValue c < 65536 then ckValue c else ckValue c - 65536 + 1) := by
  have hmax := ckValue_le c
  show BitVec.ofNat 16 (ckValue c % 65536 + ckValue c / 65536) = _
  congr 1
  split <;> omega

/-! ### The loop of R141 -/

/-- An even number of bytes is summed word by word. -/
theorem ckSum_range_even (byteAt : Nat → Byte) (k : Nat) (c : Ck) :
    ckSum c ((List.range (2 * k)).map byteAt) = (List.range k).foldl
      (fun c k => ckAdd c (word16 [byteAt (2 * k), byteAt (2 * k + 1)])) c := by
  induction k with
  | zero => rfl
  | succ k ih =>
    have hsplit : (List.range (2 * (k + 1))).map byteAt =
        (List.range (2 * k)).map byteAt ++ [byteAt (2 * k), byteAt (2 * k + 1)] := by
      simp [Nat.mul_succ, List.range_succ]
    rw [hsplit, ckSum_append _ _ _ (by simp), ih, List.range_succ, List.foldl_append]
    rfl

/-- The loop of R141 sums the bytes that it reads. -/
theorem ckSum_range (byteAt : Nat → Byte) (n : Nat) (c : Ck) :
    ckSum c ((List.range n).map byteAt) = accumulateLoop byteAt n c := by
  obtain ⟨k, rfl | rfl⟩ := Nat.even_or_odd' n
  · simp [accumulateLoop, ckSum_range_even]
  · have hhalf : (2 * k + 1) / 2 = k := by omega
    rw [List.range_succ, List.map_append, ckSum_append _ _ _ (by simp), ckSum_range_even]
    simp [accumulateLoop, hhalf, ckSum]

/-- Summing a byte string is the loop of R141 over its indices. -/
theorem ckSum_eq_accumulateLoop (bs : List Byte) (c : Ck) :
    ckSum c bs = accumulateLoop (fun k => bs.getD k 0) bs.length c := by
  rw [← ckSum_range]
  congr 1
  exact List.ext_getElem (by simp) fun k hk _ => by simp [List.getD, hk]

/-! ### The closed form of the fold (R146) and the order of the words (R148) -/

theorem foldOf_lt (bs : List Byte) : foldOf bs < 65536 := by
  unfold foldOf foldOfSum
  split <;> omega

/-- Settles O20: the fold is the closed form, whose sum is 0 exactly where every word is. -/
theorem foldHasClosedForm : Obligations.FoldHasClosedForm := by
  unfold Obligations.FoldHasClosedForm
  intro bs
  rw [ckFold_ckSum, BitVec.toNat_ofNat, Nat.mod_eq_of_lt (foldOf_lt bs)]
  simp only [foldOf, foldOfSum, List.sum_eq_zero_iff]

/-- A word's bytes in front are that word in front. -/
theorem wordsOf_bytes16_append (w : Word16) (bs : List Byte) :
    wordsOf (bytes16 w ++ bs) = w.toNat :: wordsOf bs := by
  have hw := w.isLt
  simp [bytes16, bytesBE, wordsOf]
  omega

theorem wordsOf_flatMap_bytes16 (ws : List Word16) :
    wordsOf (ws.flatMap bytes16) = ws.map BitVec.toNat := by
  induction ws with
  | nil => rfl
  | cons w ws ih => rw [List.flatMap_cons, wordsOf_bytes16_append, ih, List.map_cons]

/-- Settles O22: the closed form reads the sum of the words alone, which no reordering changes. -/
theorem foldIgnoresWordOrder : Obligations.FoldIgnoresWordOrder := by
  unfold Obligations.FoldIgnoresWordOrder
  intro ws vs hperm
  have hsum : (ws.map BitVec.toNat).sum = (vs.map BitVec.toNat).sum := (hperm.map _).sum_eq
  simp only [ckFold_ckSum, foldOf, wordsOf_flatMap_bytes16, hsum]

/-! ### The installed field (R149) -/

/-- Adding the complement of a fold to what was folded folds to all ones. -/
theorem foldOfSum_add_complement (total : Nat) :
    foldOfSum (total + (65535 - foldOfSum total)) = 65535 := by
  unfold foldOfSum
  split <;> split <;> omega

/-- A byte string whose word at an even place is the complement of the fold without it folds to all
ones. -/
theorem foldOf_installed {pre : List Byte} (heven : pre.length % 2 = 0) (post : List Byte) :
    foldOf (pre ++ bytes16 (~~~ BitVec.ofNat 16 (foldOf (pre ++ [0, 0] ++ post))) ++ post) =
      65535 := by
  have hsum (w : Word16) : (wordsOf (pre ++ bytes16 w ++ post)).sum =
      (wordsOf pre).sum + (wordsOf post).sum + w.toNat := by
    rw [List.append_assoc, wordsOf_append _ _ heven, wordsOf_bytes16_append]
    simp
    omega
  have hzero : foldOf (pre ++ [0, 0] ++ post) =
      foldOfSum ((wordsOf pre).sum + (wordsOf post).sum) := congrArg foldOfSum (hsum 0)
  have hfield : (~~~ BitVec.ofNat 16 (foldOf (pre ++ [0, 0] ++ post))).toNat =
      65535 - foldOf (pre ++ [0, 0] ++ post) := by
    rw [BitVec.toNat_not, BitVec.toNat_ofNat, Nat.mod_eq_of_lt (foldOf_lt _)]
  rw [foldOf, hsum, hfield, hzero, foldOfSum_add_complement]

/-- `CK.INSTALL` over a range with a field inside it: the field takes the complement of the fold with
the field zeroed, and the bytes around it stay (R145). -/
theorem readBytes_ckInstallIn_field (sp : ByteSpace) {size off n d : Nat} (m : Memory)
    (hin : off + n ≤ size) (hd : d + 2 ≤ n) :
    ∃ pre post : List Byte, pre.length = d ∧
      Memory.readBytes (ckInstallIn sp size m off n (off + d)).1 off n =
        pre ++ bytes16 (~~~ BitVec.ofNat 16 (foldOf (pre ++ [0, 0] ++ post))) ++ post := by
  obtain ⟨j, rfl⟩ := Nat.exists_eq_add_of_le hd
  refine ⟨Memory.readBytes m off d, Memory.readBytes m (off + d + 2) j, readBytes_length _ _ _, ?_⟩
  have hzeroed := readBytes_write_middle (readBytes_split3 m off d 2 j) (new := [0, 0]) (by simp)
  have hstored := readBytes_write_middle hzeroed
    (new := bytes16 (ckField (ckOver [] (Memory.readBytes m off d ++ [0, 0] ++
      Memory.readBytes m (off + d + 2) j)))) (by simp)
  rw [readBytes_length] at hzeroed hstored
  rw [ckInstallIn_inside sp m hin (by omega)]
  dsimp only
  rw [hzeroed, hstored, ckField, ckOver, ckSum, ckFold_ckSum]

/-- The range that `CK.INSTALL` leaves folds to all ones. -/
theorem ckFold_installed {s : State} {sp : HostSpace} {off n k : Nat}
    (hin : off + n ≤ spaceSize s.par sp) (hk : 2 * k + 2 ≤ n) :
    ckFold (ckOver [] (hostBytes (ckInstall sp off n (off + 2 * k) s) sp off n)) = 0xffff := by
  have hbytes : hostBytes (ckInstall sp off n (off + 2 * k) s) sp off n =
      Memory.readBytes (ckInstallIn (byteSpace sp) (spaceSize s.par sp) (spaceMem s sp) off n
        (off + 2 * k)).1 off n := by
    cases sp <;> exact spaceBytes_inside _ _ hin
  obtain ⟨pre, post, hpre, hread⟩ :=
    readBytes_ckInstallIn_field (byteSpace sp) (spaceMem s sp) hin hk
  rw [hbytes, hread, ckOver, ckSum, ckFold_ckSum, foldOf_installed (by omega)]
  rfl

/-- Settles O24: the installed range folds to all ones, which is what `CK.VALIDATE` asks. -/
theorem installedChecksumValidates : Obligations.InstalledChecksumValidates := by
  unfold Obligations.InstalledChecksumValidates
  intro s t sp off n k hk hin hnext
  have hrun := running_of_exec_next hnext (by simp) (by simp)
  rw [exec_ckInstall hrun] at hnext
  cases hnext
  have hsize : off + n ≤ spaceSize s.par sp := by cases sp <;> exact hin
  have hrun' : (ckInstall sp off n (off + 2 * k) s).run = .running := by cases sp <;> exact hrun
  refine ⟨_, exec_ckValidate hrun' sp off n none, ?_⟩
  exact congrArg OpResult.flag (decide_eq_true (ckFold_installed hsize hk))

/-! ### The instructions of a running state -/

/-- Settles O16: the reset of a running state. -/
theorem checksumResetClears : Obligations.ChecksumResetClears := by
  unfold Obligations.ChecksumResetClears
  exact fun _ hrun => exec_ckReset hrun

/-- Settles O19: the fold's two outcomes, its value by `ckFold_eq`. -/
theorem foldAddsResidualCarry : Obligations.FoldAddsResidualCarry := by
  unfold Obligations.FoldAddsResidualCarry
  intro s hrun
  have hexec : exec .ckFold s =
      ((ckFoldValue s).bind fun w s => done (s.setResult (.word w))).outcome := if_pos hrun
  refine ⟨fun hinit => ?_, fun hinit => ?_⟩
  · simp [hexec, ckFoldValue, hinit]
  · rw [hexec, ckFoldValue, if_pos hinit, ckFold_eq]
    rfl

/-- Everything `CK.ACCUMULATE` does in a running state. -/
theorem exec_ckAccumulate_running {s : State} (hrun : s.run = .running) (sp : SumSpace)
    (off n : Nat) : exec (.ckAccumulate sp off n) s =
      (ckAccumulate (sumBytes s sp off n) s).outcome := if_pos hrun

theorem exec_ckAccumulate_uninit {s : State} (hrun : s.run = .running) (hinit : s.ck.init = false)
    (sp : SumSpace) (off n : Nat) : exec (.ckAccumulate sp off n) s = .fault .ckUninit := by
  simp [exec_ckAccumulate_running hrun, ckAccumulate_eq, hinit]

/-- A completed `CK.ACCUMULATE` began in a running state, on an accumulator that was reset. -/
theorem exec_ckAccumulate_next {s t : State} {sp : SumSpace} {off n : Nat}
    (h : exec (.ckAccumulate sp off n) s = .next t) :
    s.run = .running ∧ s.ck.init = true ∧ t = s.setCk (ckSum s.ck (sumBytes s sp off n)) := by
  have hrun := running_of_exec_next h (by simp) (by simp)
  cases hinit : s.ck.init with
  | false => rw [exec_ckAccumulate_uninit hrun hinit] at h; cases h
  | true => rw [exec_ckAccumulate hrun hinit] at h; cases h; exact ⟨hrun, rfl, rfl⟩

/-- The byte of a space to sum at an address (R141; log 9). -/
def sumByte (s : State) : SumSpace → Nat → Byte
  | .buf, a => spaceByte .buf s.par.rxBufSize s.buf a
  | .tpl, a => spaceByte .tpl Config.tplSize s.tpl a
  | .pseudo h, a => pseudoByte h a

theorem sumBytes_eq_map (s : State) (sp : SumSpace) (off n : Nat) :
    sumBytes s sp off n = (List.range n).map fun k => sumByte s sp (off + k) := by
  cases sp <;> rfl

@[simp] theorem sumBytes_length (s : State) (sp : SumSpace) (off n : Nat) :
    (sumBytes s sp off n).length = n := by simp [sumBytes_eq_map]

theorem sumBytes_add (s : State) (sp : SumSpace) (off m n : Nat) :
    sumBytes s sp off (m + n) = sumBytes s sp off m ++ sumBytes s sp (off + m) n := by
  simp [sumBytes_eq_map, List.range_add, Nat.add_assoc]

@[simp] theorem sumBytes_setCk (s : State) (c : Ck) (sp : SumSpace) (off n : Nat) :
    sumBytes (s.setCk c) sp off n = sumBytes s sp off n := by
  cases sp <;> rfl

/-- `CK.ACCUMULATE` over the bytes that a function gives by index is R141's loop over it. -/
theorem exec_ckAccumulate_loop {s : State} (hrun : s.run = .running) (hinit : s.ck.init = true)
    {sp : SumSpace} {off n : Nat} {byteAt : Nat → Byte}
    (hbytes : sumBytes s sp off n = (List.range n).map byteAt) :
    exec (.ckAccumulate sp off n) s = .next { s with ck := accumulateLoop byteAt n s.ck } := by
  rw [exec_ckAccumulate hrun hinit, hbytes, ckSum_range]
  rfl

/-- Settles O17: each range is its bytes by index, and R141's loop sums them. -/
theorem accumulateRunsTheLoop : Obligations.AccumulateRunsTheLoop := by
  unfold Obligations.AccumulateRunsTheLoop
  refine ⟨fun s sp off n hrun hinit => exec_ckAccumulate_uninit hrun hinit sp off n,
    fun s off n hrun hinit => ⟨fun sp => ?_, fun hin => ?_, fun hin => ?_, ?_, ?_, fun h => ?_⟩⟩
  · exact exec_ckAccumulate_loop hrun hinit (sumBytes_eq_map s sp off 0)
  · exact exec_ckAccumulate_loop hrun hinit (spaceBytes_inside .buf s.buf hin)
  · exact exec_ckAccumulate_loop hrun hinit (spaceBytes_inside .tpl s.tpl hin)
  · exact exec_ckAccumulate_loop hrun hinit (sumBytes_eq_map s .buf off n)
  · exact exec_ckAccumulate_loop hrun hinit (sumBytes_eq_map s .tpl off n)
  · exact exec_ckAccumulate_loop hrun hinit (sumBytes_eq_map s (.pseudo h) off n)

/-- Settles O21: bytes after an even number of bytes are summed as if alone. -/
theorem evenSplitAccumulatesAlike : Obligations.EvenSplitAccumulatesAlike := by
  unfold Obligations.EvenSplitAccumulatesAlike
  intro s t sp off k n hnext
  obtain ⟨hrun, hinit, rfl⟩ := exec_ckAccumulate_next hnext
  have hfirst : (ckSum s.ck (sumBytes s sp off (2 * k))).init = true := by rw [ckSum_init, hinit]
  rw [exec_ckAccumulate (s := s.setCk (ckSum s.ck _)) hrun hfirst, exec_ckAccumulate hrun hinit,
    sumBytes_setCk, sumBytes_add, ckSum_append _ _ _ (by simp)]
  rfl

/-! ### The stream read -/

/-- The first bytes of a stream read are a shorter stream read. -/
theorem streamBytes_take (s : State) (p n m : Nat) :
    (streamBytes s p n).take m = streamBytes s p (min m n) := by
  simp [streamBytes, ← List.map_take, List.take_range]

/-- A stream read of a frame begins with the frame's bytes, as many as were read. -/
theorem streamBytes_take_frame {s : State} {p n : Nat} {f : RxFrame}
    (hf : frameAt s.par s.rxRdptr s.ring p = some f) (h16 : f.bytes.length < 65536) :
    (streamBytes s p n).take f.bytes.length = f.bytes.take n := by
  have hlen : frameLen f = f.bytes.length := Nat.mod_eq_of_lt h16
  rw [streamBytes_take, streamBytes_frame hf (hlen ▸ Nat.min_le_left _ _), Nat.min_comm,
    ← List.take_take, List.take_length]

/-- A stream read where no frame stands finds controller memory's byte at a place outside the ring. -/
theorem streamBytes_getElem?_outside {s : State} {p n k : Nat}
    (hf : frameAt s.par s.rxRdptr s.ring p = none) (hp : ¬ ringHas s.par p) (hk : k < n)
    (hpk : ¬ ringHas s.par (p + k)) : (streamBytes s p n)[k]? =
      some (spaceByte .ctrl s.par.ctrlMemSize s.ctrl (p + k)) := by
  simp [streamBytes, streamByte, hf, hp, hk, hpk]

/-- Everything `CK.ACCUMULATE_STREAM` does in a running state, its wait complete. -/
theorem exec_ckAccumulateStream {s : State} (hrun : s.run = .running) (hw : waitsComplete s 1)
    (src off n : Nat) (dst : StreamSpace) : exec (.ckAccumulateStream src dst off n) s =
      (ckAccumulate (streamBytes s src n)
        (hostWrite .buf off (streamBytes s src n) (usePoll s))).outcome := by
  refine (runMain_running hrun _).trans ?_
  cases dst
  rw [ckStream, boundedWait_ok hw]
  rfl

/-- Settles O18: the bytes are the stream read's, and the sum over them is R141's loop. -/
theorem accumulateStreamCopiesAndSums : Obligations.AccumulateStreamCopiesAndSums := by
  unfold Obligations.AccumulateStreamCopiesAndSums
  intro s src off n dst hrun hw
  have hck : (hostWrite .buf off (streamBytes s src n) (usePoll s)).ck = s.ck := rfl
  rw [exec_ckAccumulateStream hrun hw, ckAccumulate_eq, hck]
  refine ⟨fun hinit => by simp [hinit], fun hinit => ⟨streamBytes s src n, streamBytes_length _ _ _,
    fun f hf h16 => streamBytes_take_frame hf h16,
    fun hf hp k hk hpk => streamBytes_getElem?_outside hf hp hk hpk, ?_⟩⟩
  rw [if_pos hinit, ckSum_eq_accumulateLoop, streamBytes_length]
  rfl

end Sys2Proof.Machine
end

section
/-! Proofs of the statements about sending (42_frame_dispatcher.md R178 to R183): the elapsed time of
a wait by modular arithmetic, and what each transmit operation comes to in each of its cases. -/

namespace Sys2Proof.Machine

/-! ### Elapsed time (R183) -/

/-- `n` ticks after its start a wait has lasted `n` ticks, up to whole periods of the counter. -/
theorem elapsed_add (p : Params) (start n : Nat) :
    elapsed p ((start + n) % 2 ^ p.tickBits) start = n % 2 ^ p.tickBits := by
  unfold elapsed
  have hlt := Nat.mod_lt start (Nat.two_pow_pos p.tickBits)
  generalize 2 ^ p.tickBits = period at hlt ⊢
  have hstart := Nat.div_add_mod start period
  have hwhole : start + n + (period - start % period) = n + period * (start / period + 1) := by
    rw [Nat.mul_succ]
    omega
  rw [Nat.mod_add_mod, hwhole, Nat.add_mul_mod_self_left]

/-- Settles O32: `elapsed_add` for a count below one period and for one whole period. -/
theorem elapsedTimeWraps : Obligations.ElapsedTimeWraps := by
  unfold Obligations.ElapsedTimeWraps
  intro p start n _
  refine ⟨elapsed_add p start n, fun hn => ?_, ?_⟩
  · rw [elapsed_add, Nat.mod_eq_of_lt hn]
  · rw [elapsed_add, Nat.mod_self]

/-! ### Acknowledgment and transmission (R178, R181) -/

/-- Settles O33: the acknowledgment of a running state. -/
theorem acknowledgeResetsTheTimer : Obligations.AcknowledgeResetsTheTimer := by
  unfold Obligations.AcknowledgeResetsTheTimer
  exact fun _ hrun => if_pos hrun

/-- The transmission of a frame that fits its slot, its wait complete. -/
theorem ethTransmit_ok {s : State} {len : Nat} (hfits : len ≤ s.par.txSlotSize)
    (hw : waitsComplete s 1) (slot : Slot) :
    ethTransmit slot len s = done ((usePoll (trackSlot slot len s)).emit
      (.tx slot (Memory.readBytes s.ctrl (slotStart s.par slot) len) false)) := by
  rw [ethTransmit_eq hfits, if_pos (waitsComplete_head hw)]
  rfl

/-- Settles O29: an overflow is found before the wait, and the slots differ in what is tracked. -/
theorem transmitSendsTheSlot : Obligations.TransmitSendsTheSlot := by
  unfold Obligations.TransmitSendsTheSlot
  intro s len hrun
  refine ⟨fun hover slot => ?_, fun hfits hw => ⟨?_, ?_⟩⟩
  · exact (runMain_running hrun _).trans (congrArg Res.outcome (ethTransmit_overflow hover))
  · exact runMain_done hrun (ethTransmit_ok hfits hw .reg)
  · exact runMain_done hrun (ethTransmit_ok hfits hw .prio)

/-! ### The retransmission check (R179, R180, R182) -/

theorem ethCheckRetransmit_idle {s : State} (h : s.rtx.prioEnd = s.par.prioNone) (now : Nat) :
    ethCheckRetransmit now s = done s := if_pos h

theorem ethCheckRetransmit_waiting {s : State} {now : Nat}
    (h : elapsed s.par now s.rtx.start < s.rtx.wait) : ethCheckRetransmit now s = done s := by
  have hwaiting : expired s.par s.rtx now = false := decide_eq_false (Nat.not_le.2 h)
  rw [ethCheckRetransmit, hwaiting, if_neg Bool.false_ne_true, ite_self]

/-- An expiry is fatal at the maximum, and a retransmission below it. -/
theorem ethCheckRetransmit_expired {s : State} {now : Nat} (hout : s.rtx.prioEnd ≠ s.par.prioNone)
    (hexp : s.rtx.wait ≤ elapsed s.par now s.rtx.start) :
    ethCheckRetransmit now s =
      if s.par.tMax ≤ s.rtx.timeout then raiseFatal .noResponse s else retransmit now s := by
  have hexpired : expired s.par s.rtx now = true := decide_eq_true hexp
  rw [ethCheckRetransmit, if_neg hout, if_pos hexpired]

/-- A retransmission whose wait completes: neither the wait nor the event changes what it sends and
draws. -/
theorem retransmit_ok {s : State} (hw : waitsComplete s 1) (now : Nat) :
    retransmit now s = done (useJitter
      (((usePoll s).emit (.tx .prio (prioBytes s) true)).setRtx (backedOff s now))) := by
  rw [retransmit, linkTransmit, boundedWait_ok hw]
  rfl

/-- Settles O30: two cases do nothing, and the retransmission draws the next jitter. -/
theorem checkRetransmitBacksOff : Obligations.CheckRetransmitBacksOff := by
  unfold Obligations.CheckRetransmitBacksOff
  intro s now hrun
  refine ⟨fun hidle => runMain_done hrun (ethCheckRetransmit_idle hidle now),
    fun hwait => runMain_done hrun (ethCheckRetransmit_waiting hwait),
    fun hout hexp hbelow hw hnow => ⟨jitterDraw s, Nat.min_le_right _ _, runMain_done hrun ?_⟩⟩
  rw [ethCheckRetransmit_expired hout hexp, if_neg (Nat.not_le.2 hbelow), retransmit_ok hw,
    backedOff, Nat.mod_eq_of_lt hnow]
  rfl

/-- Settles O31: an expiry at the maximum raises the condition where it is found. -/
theorem expiryAtMaximumIsFatal : Obligations.ExpiryAtMaximumIsFatal := by
  unfold Obligations.ExpiryAtMaximumIsFatal
  intro s now hrun hout hexp hmax
  have hfatal : ethCheckRetransmit now s = raiseFatal .noResponse s := by
    rw [ethCheckRetransmit_expired hout hexp, if_pos hmax.ge]
  exact (runMain_running hrun _).trans (congrArg Res.outcome hfatal)

end Sys2Proof.Machine
end

section
/-! Proofs of the statements about receiving and the main cycle (42_frame_dispatcher.md R170 to
R177). What `ETH.RECEIVE` comes to in each of its cases is said once and serves the lone operation and
the cycle. A stage that completes has either ended the session or returned to a running one
(`Res.Moves.andThen_of_next`), so a cycle is read off the executions of its three stages. -/

namespace Sys2Proof.Machine

/-! ### The ring (R172, R176) -/

/-- The packet count is positive exactly where the ring holds a frame. -/
theorem ethPoll_eq (s : State) : ethPoll s = !s.ring.isEmpty := by
  have hcount : (packetCount s).toNat = min s.ring.length 255 := by
    rw [packetCount, BitVec.toNat_ofNat]
    omega
  rw [ethPoll, hcount]
  cases s.ring <;> simp

theorem ethAdvance_ok {s : State} (hw : waitsComplete s 1) (next : Nat) :
    ethAdvance next s = done (((usePoll s).setRing s.ring.tail).setRxRdptr next) := by
  rw [ethAdvance, linkAdvance_ok hw, Res.andThen_ok]

/-- Settles O28: the two operations on the ring. -/
theorem pollAndAdvanceUseTheRing : Obligations.PollAndAdvanceUseTheRing := by
  unfold Obligations.PollAndAdvanceUseTheRing
  intro s hrun
  refine ⟨?_, fun next hw => runMain_done hrun (ethAdvance_ok hw next)⟩
  rw [← ethPoll_eq]
  exact if_pos hrun

/-! ### Dispatch (R175) -/

/-- A frame with room for its Ethernet header goes by its source and its ethertype. -/
theorem ethDispatch_eq {s : State} (hroom : 14 ≤ s.liveLen.toNat) : ethDispatch s =
    if ethSource s = s.par.localMac then done s
    else if ethType s = 0x0806 then arpHandle s
    else if ethType s = 0x0800 then ipReceive s
    else done s := by
  have hhas : frameHas s 14 = true := decide_eq_true hroom
  rw [ethDispatch, dispatchBy, hhas, if_neg (by simp)]

/-- Settles O27: the four cases of `ethDispatch_eq`. -/
theorem dispatchSelectsByEthertype : Obligations.DispatchSelectsByEthertype := by
  unfold Obligations.DispatchSelectsByEthertype
  intro s hrun hroom
  have hexec : exec .ethDispatch s = (ethDispatch s).outcome := runMain_running hrun _
  rw [hexec, ethDispatch_eq hroom]
  refine ⟨fun hself => ?_, fun hother => ?_⟩
  · rw [if_pos hself]
    rfl
  rw [if_neg hother]
  refine ⟨fun harp => ?_, fun hip => ?_, fun harp hip => ?_⟩
  · rw [if_pos harp]
    exact (runMain_running hrun _).symm
  · rw [if_neg (by rw [hip]; decide), if_pos hip]
    exact (runMain_running hrun _).symm
  · rw [if_neg harp, if_neg hip]
    rfl

/-! ### Receive (R174, R177) -/

/-- The link's answer for the frame at the read cursor. -/
theorem linkReadFrame_ok {s : State} {f : RxFrame} {rest : List RxFrame} {n : Nat}
    (hring : s.ring = f :: rest) (hw : waitsComplete s (n + 1)) :
    linkReadFrame s = .ok f (usePoll s) := by
  have hframe : pendingFrame (usePoll s) = f := by
    show (pendingFrame s) = f
    rw [pendingFrame, hring]
  rw [linkReadFrame, boundedWait_ok hw, Res.andThen_ok, hframe]

/-- A length that fits in 16 bits is reported as it is. -/
theorem frameLen_eq {f : RxFrame} (h : f.bytes.length < 65536) : frameLen f = f.bytes.length :=
  Nat.mod_eq_of_lt h

/-- The state after link recovery, with the two waits of the read and of the reset (R177). -/
def linkRecovered (s : State) : State :=
  { s with
    ring := []
    linkSteps := s.linkSteps + 1
    rxRdptr := s.par.rxStart
    live := false
    ipView := none
    opt := optIdle
    draws := afterWaits s 2 }

theorem linkRecover_ok {s : State} (hw : waitsComplete s 2) :
    linkRecover (usePoll s) = .ok () (linkRecovered s) := by
  have hw' : waitsComplete (usePoll s) 1 := waitsComplete_usePoll hw
  rw [linkRecover, linkReinit_ok hw', Res.andThen_ok]
  simp [done, linkRecovered, endFrame, usePoll, afterWaits,
    State.setRing, State.setRxRdptr, State.setLive, State.setIpView, State.setOpt, State.setDraws]

section
variable {s : State} {f : RxFrame} {rest : List RxFrame}

/-- Once the frame is read, its pointer is tested, then its length (R174, R177). -/
theorem ethReceive_eq {n : Nat} (hring : s.ring = f :: rest) (hw : waitsComplete s (n + 1)) :
    ethReceive s =
      if f.next < s.par.rxStart ∨ s.par.rxEnd < f.next then
        (linkRecover (usePoll s)).bind fun _ s => .ok none s
      else if frameLen f < 14 ∨ s.par.rxBufSize < frameLen f then
        .ok (some { accepted := false, next := f.next }) (usePoll s)
      else
        (linkStreamFrame f (usePoll s)).bind fun bs s =>
          .ok (some { accepted := true, next := f.next }) (takeFrame bs s) := by
  rw [ethReceive, linkReadFrame_ok hring hw, Res.bind_ok]
  rfl

/-- A next-frame pointer outside the ring is not received (R177). -/
theorem ethReceive_recovers (hring : s.ring = f :: rest) (hw : waitsComplete s 2)
    (hout : f.next < s.par.rxStart ∨ s.par.rxEnd < f.next) :
    ethReceive s = .ok none (linkRecovered s) := by
  rw [ethReceive_eq hring hw, if_pos hout, linkRecover_ok hw, Res.bind_ok]

/-- A frame of a wrong length is reported and not taken (R174). -/
theorem ethReceive_drops {n : Nat} (hring : s.ring = f :: rest) (h16 : f.bytes.length < 65536)
    (hw : waitsComplete s (n + 1)) (hlow : s.par.rxStart ≤ f.next) (hhigh : f.next ≤ s.par.rxEnd)
    (hlen : f.bytes.length < 14 ∨ s.par.rxBufSize < f.bytes.length) :
    ethReceive s = .ok (some { accepted := false, next := f.next }) (usePoll s) := by
  have hin : ¬ (f.next < s.par.rxStart ∨ s.par.rxEnd < f.next) := by omega
  rw [← frameLen_eq h16] at hlen
  rw [ethReceive_eq hring hw, if_neg hin, if_pos hlen]

/-- A frame of a right length is streamed, and is taken if the stream read completes (R174). -/
theorem ethReceive_fits {n : Nat} (hring : s.ring = f :: rest) (h16 : f.bytes.length < 65536)
    (hw : waitsComplete s (n + 1)) (hlow : s.par.rxStart ≤ f.next) (hhigh : f.next ≤ s.par.rxEnd)
    (hmin : 14 ≤ f.bytes.length) (hmax : f.bytes.length ≤ s.par.rxBufSize) :
    ethReceive s = (linkStreamFrame f (usePoll s)).bind fun bs s =>
      .ok (some { accepted := true, next := f.next }) (takeFrame bs s) := by
  have hin : ¬ (f.next < s.par.rxStart ∨ s.par.rxEnd < f.next) := by omega
  have hlen : ¬ (frameLen f < 14 ∨ s.par.rxBufSize < frameLen f) := by
    rw [frameLen_eq h16]
    omega
  rw [ethReceive_eq hring hw, if_neg hin, if_neg hlen]

end

/-- The state after a frame was taken, with the two waits of the read and of the stream read (R174,
R142). -/
def frameTaken (s : State) (bs : List Byte) : State :=
  { s with
    buf := Memory.write s.buf 0 bs
    live := true
    liveLen := BitVec.ofNat 16 bs.length
    ipView := none
    opt := optIdle
    ck := accumulateLoop (fun k => bs.getD k 0) bs.length s.ck
    draws := afterWaits s 2 }

/-- The stream read of a frame, and the frame taken, on an accumulator that has been reset. -/
theorem linkStreamFrame_take {s : State} {f : RxFrame} (h16 : f.bytes.length < 65536)
    (hw : waitsComplete s 2) (hinit : s.ck.init = true) (hdr : RxHeader) :
    ((linkStreamFrame f (usePoll s)).bind fun bs s => .ok (some hdr) (takeFrame bs s)) =
      .ok (some hdr) (frameTaken s f.bytes) := by
  have hw' : waitsComplete (usePoll s) 1 := waitsComplete_usePoll hw
  have hinit' : (usePoll s).ck.init = true := hinit
  rw [linkStreamFrame_ok hw' hinit', frameLen_eq h16, List.take_length, Res.bind_ok,
    ckSum_eq_accumulateLoop]
  simp [takeFrame, frameTaken, usePoll, afterWaits, State.setBuf, State.setLiveLen, State.setLive,
    State.setIpView, State.setOpt, State.setCk, State.setDraws]

/-- The stream read on a never-reset accumulator (R142, R395). -/
theorem linkStreamFrame_uninit {s : State} {n : Nat} (hw : waitsComplete s (n + 1))
    (hinit : s.ck.init = false) (f : RxFrame) : linkStreamFrame f s = .fault .ckUninit := by
  have hck : (usePoll s).ck = s.ck := rfl
  simp [linkStreamFrame, boundedWait_ok hw, ckAccumulate_eq, hck, hinit]

/-- What `ETH.RECEIVE` on its own leaves in the result register (log 16). -/
def receiveResult : Option RxHeader → OpResult
  | some h => .header h
  | none => .recovered

/-- `ETH.RECEIVE` of a running state is the operation and then its result. -/
theorem exec_ethReceive {s : State} (hrun : s.run = .running) : exec .ethReceive s =
    ((ethReceive s).bind fun h s => done (s.setResult (receiveResult h))).outcome := by
  have hresult (h : Option RxHeader) :
      receiveResult h = match h with | some h => .header h | none => .recovered := by
    cases h <;> rfl
  simp only [hresult]
  exact if_pos hrun

theorem exec_ethReceive_of_ok {s t : State} {h : Option RxHeader} (hrun : s.run = .running)
    (hr : ethReceive s = .ok h t) :
    exec .ethReceive s = .next (t.setResult (receiveResult h)) := by
  rw [exec_ethReceive hrun, hr]
  rfl

/-- Settles O25: the stream read either sums the frame's bytes, or faults. -/
theorem receiveCopiesAcceptedFrame : Obligations.ReceiveCopiesAcceptedFrame := by
  unfold Obligations.ReceiveCopiesAcceptedFrame
  intro s f rest hrun hring hlow hhigh h16 hmin hmax hw
  have hreceive := ethReceive_fits hring h16 hw hlow hhigh hmin hmax
  refine ⟨fun hinit => ?_, fun hinit => ?_⟩
  · rw [linkStreamFrame_take h16 hw hinit] at hreceive
    exact exec_ethReceive_of_ok hrun hreceive
  · rw [exec_ethReceive hrun, hreceive, linkStreamFrame_uninit (waitsComplete_usePoll hw) hinit]
    rfl

/-- Settles O26: the drop and the recovery, each with its result. -/
theorem receiveDropsOrRecovers : Obligations.ReceiveDropsOrRecovers := by
  unfold Obligations.ReceiveDropsOrRecovers
  intro s f rest hrun hring h16 hw
  refine ⟨fun hlow hhigh hlen => ?_, fun hout => ?_⟩
  · exact exec_ethReceive_of_ok hrun
      (ethReceive_drops hring h16 hw hlow hhigh hlen)
  · exact exec_ethReceive_of_ok hrun (ethReceive_recovers hring hw hout)

/-! ### The cycle without a frame (R171) -/

theorem ethCycle_of_no_frame {s : State} (h : s.ring = []) :
    ethCycle s = ethCheckRetransmit s.ticks s := by
  simp [ethCycle, ethPoll_eq, h]

/-- Settles O34: with no frame the cycle is the check, which does nothing while nothing is
outstanding. -/
theorem cycleWithoutFrameChecksTimer : Obligations.CycleWithoutFrameChecksTimer := by
  unfold Obligations.CycleWithoutFrameChecksTimer
  intro s hrun hring
  have hcycle := ethCycle_of_no_frame hring
  refine ⟨?_, fun hidle => runMain_done hrun (hcycle.trans (ethCheckRetransmit_idle hidle _))⟩
  calc exec .ethCycle s = (ethCycle s).outcome := runMain_running hrun _
    _ = (ethCheckRetransmit s.ticks s).outcome := by rw [hcycle]
    _ = exec (.ethCheckRetransmit s.ticks) s := (runMain_running hrun _).symm

/-! ### Stages that return and stages that end the session -/

/-- An operation that returns leaves the control state as it was. -/
theorem Res.Moves.run_of_ok {α : Type} {b : Bool} {s t : State} {a : α}
    (hm : (Res.ok a t).Moves b s) : t.run = s.run :=
  (show Path b s t from hm).grows.run

/-- An operation that does not return has ended the session (R393, R350). -/
theorem Res.Moves.ended_of_stop {α : Type} {b : Bool} {s t : State}
    (hm : (Res.stop t : Res α).Moves b s) : t.run ≠ .running := by
  obtain ⟨u, -, hend⟩ := hm
  exact hend.not_running

/-- A stage that completes in a running session either ended the session, and with it the operation,
or returned to the stages after it. -/
theorem Res.Moves.andThen_of_next {b : Bool} {s t : State} {r : Res Unit} (hm : r.Moves b s)
    (h : r.outcome = .next t) (k : State → Res Unit) :
    (t.run ≠ .running → s.run = .running → r.andThen k = .stop t) ∧
      (t.run = .running → r.andThen k = k t) := by
  obtain ⟨u, rfl⟩ | rfl := (outcome_next_iff r t).1 h
  · exact ⟨fun hend hrun => absurd (hm.run_of_ok.trans hrun) hend, fun _ => rfl⟩
  · exact ⟨fun _ _ => rfl, fun hrun => absurd hrun hm.ended_of_stop⟩

theorem boundedWait_result {s t : State} {u : Unit} (h : boundedWait s = .ok u t) :
    t.result = s.result := by
  cases boundedWait_eq_ok h
  rfl

theorem linkReadFrame_result {s t : State} {f : RxFrame} (h : linkReadFrame s = .ok f t) :
    t.result = s.result := by
  obtain ⟨_, u, hwait, hread⟩ := bind_eq_ok h
  cases hread
  exact boundedWait_result hwait

theorem linkRecover_result {s t : State} {a : Unit} (h : linkRecover s = .ok a t) :
    t.result = s.result := by
  obtain ⟨_, u, hreinit, hcursor⟩ := bind_eq_ok h
  obtain ⟨_, v, hwait, hempty⟩ := bind_eq_ok hreinit
  cases hempty
  cases hcursor
  exact (boundedWait_result hwait :)

theorem linkStreamFrame_result {s t : State} {f : RxFrame} {bs : List Byte}
    (h : linkStreamFrame f s = .ok bs t) : t.result = s.result := by
  obtain ⟨_, u, hwait, hstream⟩ := bind_eq_ok h
  obtain ⟨_, v, hsum, hbytes⟩ := bind_eq_ok hstream
  cases hbytes
  rw [ckAccumulate_eq] at hsum
  split at hsum
  · cases hsum
    exact (boundedWait_result hwait :)
  · cases hsum

/-- Inside a cycle `ETH.RECEIVE` does not write the result register (log 16). -/
theorem ethReceive_result {s t : State} {h : Option RxHeader} (hr : ethReceive s = .ok h t) :
    t.result = s.result := by
  obtain ⟨f, u, hread, hrest⟩ := bind_eq_ok hr
  rw [← linkReadFrame_result hread]
  split at hrest
  · obtain ⟨_, v, hrecover, hnone⟩ := bind_eq_ok hrest
    cases hnone
    exact linkRecover_result hrecover
  split at hrest
  · cases hrest
    rfl
  · obtain ⟨bs, v, hstream, hsome⟩ := bind_eq_ok hrest
    cases hsome
    exact (linkStreamFrame_result hstream :)

/-- A completed `ETH.RECEIVE` of a running session: it returned a header, which its result register
shows, or it ended the session. -/
theorem exec_ethReceive_next {s a : State} (hrun : s.run = .running)
    (h : exec .ethReceive s = .next a) :
    (a.run = .running ∧ ∃ hdr, a.result = receiveResult hdr ∧
      ethReceive s = .ok hdr { a with result := s.result }) ∨
    (a.run ≠ .running ∧ ethReceive s = .stop a) := by
  have hm := ethReceive_moves s
  rw [exec_ethReceive hrun] at h
  cases hr : ethReceive s with
  | ok hdr t =>
    have hresult := ethReceive_result hr
    rw [hr] at h hm
    cases h
    refine .inl ⟨hm.run_of_ok.trans hrun, hdr, rfl, ?_⟩
    rw [← hresult]
    rfl
  | stop t =>
    rw [hr] at h hm
    cases h
    exact .inr ⟨hm.ended_of_stop, rfl⟩
  | fault flt =>
    rw [hr] at h
    cases h

/-! ### The cycle with a frame (R171) -/

/-- The cycle after `ETH.RECEIVE`: with a header the frame is handled, after link recovery the cycle
is over. -/
def finishCycle : Option RxHeader → State → Res Unit
  | some h, s => handleFrame h s
  | none, s => done s

theorem ethCycle_of_frame {s : State} (h : s.ring ≠ []) :
    ethCycle s = (ethReceive s).bind finishCycle := by
  have hpoll : ethPoll s = true := by simpa [ethPoll_eq] using h
  rw [ethCycle, sampleTicks_eq, hpoll, if_pos rfl]
  congr 1
  funext hdr t
  cases hdr <;> rfl

/-- An accepted frame is dispatched and then advanced past. -/
theorem handleFrame_accepted (next : Nat) (s : State) :
    handleFrame { accepted := true, next := next } s =
      (ethDispatch s).andThen fun s => (ethAdvance next s).andThen fun s => done (endFrame s) := by
  rw [handleFrame, if_pos rfl]

/-- A dropped frame is advanced past alone. -/
theorem handleFrame_dropped (next : Nat) (s : State) :
    handleFrame { accepted := false, next := next } s =
      (ethAdvance next s).andThen fun s => done (endFrame s) := by
  rw [handleFrame, if_neg Bool.false_ne_true, done_andThen]

theorem ethDispatch_moves (s : State) : (ethDispatch s).Moves true s := dispatchBy_moves _ s

/-- The stages of an accepted frame, read off their own executions: the first that ends the session
ends the handling, and after both no frame is live (R171). -/
theorem handleFrame_stages {t u : State} {next : Nat} (hrun : t.run = .running)
    (hdispatch : exec .ethDispatch t = .next u) :
    (u.run ≠ .running → handleFrame { accepted := true, next := next } t = .stop u) ∧
    ∀ v, u.run = .running → exec (.ethAdvance next) u = .next v →
      (v.run ≠ .running → handleFrame { accepted := true, next := next } t = .stop v) ∧
      (v.run = .running →
        handleFrame { accepted := true, next := next } t = done (endFrame v)) := by
  rw [handleFrame_accepted]
  obtain ⟨-, hd⟩ := (runMain_next_iff t u ethDispatch).1 hdispatch
  obtain ⟨hended, hreturned⟩ := (ethDispatch_moves t).andThen_of_next hd
    fun s => (ethAdvance next s).andThen fun s => done (endFrame s)
  refine ⟨fun hu => hended hu hrun, fun v hu hadvance => ?_⟩
  rw [hreturned hu]
  obtain ⟨-, ha⟩ := (runMain_next_iff u v (ethAdvance next)).1 hadvance
  obtain ⟨hended', hreturned'⟩ := (ethAdvance_moves next u).andThen_of_next ha
    fun s => done (endFrame s)
  exact ⟨fun hv => hended' hv hu, hreturned'⟩

/-- `ETH.CYCLE` of a running state with a frame is `ETH.RECEIVE` and the rest of the cycle. -/
theorem exec_ethCycle_of_frame {s : State} (hrun : s.run = .running) (hring : s.ring ≠ []) :
    exec .ethCycle s = ((ethReceive s).bind finishCycle).outcome := by
  rw [← ethCycle_of_frame hring]
  exact runMain_running hrun _

theorem exec_ethCycle_of_ok {s t : State} {hdr : Option RxHeader} (hrun : s.run = .running)
    (hring : s.ring ≠ []) (hr : ethReceive s = .ok hdr t) :
    exec .ethCycle s = (finishCycle hdr t).outcome := by
  rw [exec_ethCycle_of_frame hrun hring, hr, Res.bind_ok]

theorem exec_ethCycle_of_stop {s t : State} (hrun : s.run = .running) (hring : s.ring ≠ [])
    (hr : ethReceive s = .stop t) : exec .ethCycle s = .next t := by
  rw [exec_ethCycle_of_frame hrun hring, hr, Res.bind_stop, outcome_stop]

theorem receiveResult_eq_header {hdr : Option RxHeader} {h : RxHeader}
    (heq : receiveResult hdr = .header h) : hdr = some h := by
  cases hdr with
  | none => cases heq
  | some h' => cases heq; rfl

/-- The handling of a dropped frame, its second wait complete (R174, R176). -/
theorem handleFrame_dropped_ok {s : State} {rest : List RxFrame} {f : RxFrame}
    (hring : s.ring = f :: rest) (hw : waitsComplete s 2) :
    handleFrame { accepted := false, next := f.next } (usePoll s) = done { s with
      ring := rest
      linkSteps := s.linkSteps + 1
      rxRdptr := f.next
      live := false
      ipView := none
      opt := optIdle
      draws := afterWaits s 2 } := by
  have hw' : waitsComplete (usePoll s) 1 := waitsComplete_usePoll hw
  rw [handleFrame_dropped, ethAdvance_ok hw', done_andThen]
  simp [done, hring, endFrame, usePoll, afterWaits, State.setRing, State.setRxRdptr, State.setLive,
    State.setIpView, State.setOpt, State.setDraws]

/-- Settles O35: the stages of an accepted frame by `handleFrame_stages`; the drop and the recovery
by the cases of `ETH.RECEIVE`. -/
theorem cycleRunsReceiveDispatchAdvance : Obligations.CycleRunsReceiveDispatchAdvance := by
  unfold Obligations.CycleRunsReceiveDispatchAdvance
  refine ⟨fun s a hrun hring hreceive => ?_, fun s f rest hrun hring h16 hw => ?_⟩
  · obtain ⟨ha, hdr, hresult, hok⟩ | ⟨ha, hstop⟩ := exec_ethReceive_next hrun hreceive
    · refine ⟨fun hend => absurd ha hend, fun b next _ hheader hdispatch => ?_⟩
      obtain rfl := receiveResult_eq_header (hresult.symm.trans hheader)
      obtain ⟨hended, hreturned⟩ :=
        handleFrame_stages (t := { a with result := s.result }) (next := next) ha hdispatch
      rw [exec_ethCycle_of_ok hrun hring hok, finishCycle]
      refine ⟨fun hb => congrArg Res.outcome (hended hb), fun c hb hadvance => ?_⟩
      obtain ⟨hended', hreturned'⟩ := hreturned c hb hadvance
      exact ⟨fun hc => congrArg Res.outcome (hended' hc),
        fun hc => congrArg Res.outcome (hreturned' hc)⟩
    · exact ⟨fun _ => exec_ethCycle_of_stop hrun hring hstop, fun _ _ ha' => absurd ha' ha⟩
  · have hne : s.ring ≠ [] := by simp [hring]
    refine ⟨fun hlow hhigh hlen => ?_, fun hout => ?_⟩
    · rw [exec_ethCycle_of_ok hrun hne (ethReceive_drops hring h16 hw hlow hhigh hlen),
        finishCycle, handleFrame_dropped_ok hring hw]
      rfl
    · exact exec_ethCycle_of_ok hrun hne (ethReceive_recovers hring hw hout)

end Sys2Proof.Machine
end

section
/-! Proofs of the Address Resolver's statements (43_arp.md R220 to R223): what a request must meet,
the 42 bytes of the reply built in place, and how each instruction that takes an ARP frame comes to
`ARP.HANDLE_REQUEST`. -/

namespace Sys2Proof.Machine

/-! ### The checks of a request (R220) -/

theorem arpAccepted_iff (oper : Word16) (s : State) : arpAccepted oper s = true ↔
    42 ≤ s.liveLen.toNat ∧ Memory.be16 s.buf 14 = 1 ∧ Memory.be16 s.buf 16 = 0x0800 ∧
      Memory.read s.buf 18 = 6 ∧ Memory.read s.buf 19 = 4 ∧ oper = 1 ∧ s.ip.host ≠ 0 ∧
      Memory.be32 s.buf 38 = s.ip.host := by
  simp only [arpAccepted, frameHas, Bool.and_eq_true, decide_eq_true_eq, and_assoc]

/-- A frame that asks for another address, or finds no host configured, is dropped (R223). -/
theorem arpHandleBy_not_target {s : State}
    (h : Memory.be32 s.buf 38 ≠ s.ip.host ∨ s.ip.host = 0) (oper : Word16) :
    arpHandleBy oper s = done s := by
  refine if_neg fun haccepted => ?_
  obtain ⟨-, -, -, -, -, -, hhost, htarget⟩ := (arpAccepted_iff oper s).1 haccepted
  exact h.elim (absurd htarget) hhost

/-! ### The reply (R222) -/

/-- Two strings written with a gap between them, read back with what the gap held before. -/
theorem readBytes_write_around (m : Memory) (a gap : Nat) (front back : List Byte) :
    Memory.readBytes (Memory.write (Memory.write m a front) (a + front.length + gap) back) a
        (front.length + gap + back.length) =
      front ++ Memory.readBytes m (a + front.length) gap ++ back := by
  rw [readBytes_split3, readBytes_write_same,
    readBytes_write_outside _ _ _ _ _ (.inl (Nat.le_add_right _ _)), readBytes_write_same,
    readBytes_write_outside _ _ _ _ _ (.inl le_rfl),
    readBytes_write_outside _ _ _ _ _ (.inr le_rfl)]

theorem bytes48_mac (m : Memory) (a : Nat) : bytes48 (Memory.mac m a) = Memory.readBytes m a 6 :=
  bytes48_word48 (readBytes_length m a 6)

theorem bytes32_be32 (m : Memory) (a : Nat) : bytes32 (Memory.be32 m a) = Memory.readBytes m a 4 :=
  bytes32_word32 (readBytes_length m a 4)

theorem readBytes_arpReplyIn (s : State) : Memory.readBytes (arpReplyIn s) 0 42 =
    Memory.readBytes s.buf 22 6 ++ bytes48 s.par.localMac ++ Memory.readBytes s.buf 12 8 ++
      [0x00, 0x02] ++ bytes48 s.par.localMac ++ bytes32 s.ip.host ++ Memory.readBytes s.buf 22 6 ++
      Memory.readBytes s.buf 28 4 := by
  have hreply := readBytes_write_around s.buf 0 8
    (Memory.readBytes s.buf 22 6 ++ bytes48 s.par.localMac)
    (bytes16 2 ++ bytes48 s.par.localMac ++ bytes32 s.ip.host ++ Memory.readBytes s.buf 22 6 ++
      Memory.readBytes s.buf 28 4)
  have hoper : ([0x00, 0x02] : List Byte) = bytes16 2 := by decide
  rw [hoper]
  simpa [arpReplyIn, bytes48_mac, bytes32_be32] using hreply

theorem read_arpReplyIn_outside (s : State) {a : Nat} (h : 42 ≤ a) :
    Memory.read (arpReplyIn s) a = Memory.read s.buf a := by
  rw [arpReplyIn, read_write, if_neg (by simp; omega), read_write, if_neg (by simp; omega)]

/-- An accepted request whose reply fits the slot and whose transmission completes. -/
theorem arpHandleBy_accepted {oper : Word16} {s : State} (haccepted : arpAccepted oper s = true)
    (hfits : 42 ≤ s.par.txSlotSize) (hw : waitsComplete s 1) :
    arpHandleBy oper s = done ((usePoll (arpBuild s)).emit
      (.tx .reg (Memory.readBytes (arpReplyIn s) 0 42) false)) := by
  have hsent : Memory.readBytes (arpBuild s).ctrl s.par.txRegStart 42 =
      Memory.readBytes (arpReplyIn s) 0 42 := by
    have h := readBytes_write_same s.ctrl s.par.txRegStart (Memory.readBytes (arpReplyIn s) 0 42)
    rwa [readBytes_length] at h
  rw [arpHandleBy, if_pos haccepted, ethTransmit_ok (s := arpBuild s) hfits hw .reg, ← hsent]
  rfl

/-! ### The instructions that take an ARP frame -/

/-- Dispatch by the ARP ethertype, with room for the Ethernet header and no self-echo (R175). -/
theorem dispatchBy_arp {s : State} (hroom : 14 ≤ s.liveLen.toNat)
    (hother : ethSource s ≠ s.par.localMac) : dispatchBy 0x0806 s = arpHandle s := by
  have hhas : frameHas s 14 = true := decide_eq_true hroom
  rw [dispatchBy, hhas, if_neg (by simp), if_neg hother, if_pos rfl]

/-- Whatever the frame, dispatch by the ARP ethertype does nothing or what the handler does. -/
theorem dispatchBy_arp_cases (s : State) :
    dispatchBy 0x0806 s = done s ∨ dispatchBy 0x0806 s = arpHandle s := by
  unfold dispatchBy
  split
  · exact .inl rfl
  split
  · exact .inl rfl
  · exact .inr (if_pos rfl)

/-- Every instruction that takes the live frame as a request is `ARP.HANDLE_REQUEST` of one. -/
theorem exec_of_takesArpRequest {s : State} {i : Instr} (hrun : s.run = .running)
    (hroom : 14 ≤ s.liveLen.toNat) (h : takesArpRequest s i) :
    exec i s = (arpHandleBy 1 s).outcome := by
  obtain rfl | ⟨hoper, h⟩ := h
  · exact runMain_running hrun _
  have hhandle : arpHandle s = arpHandleBy 1 s := congrArg (arpHandleBy · s) hoper
  rw [← hhandle]
  obtain rfl | ⟨hother, h⟩ := h
  · exact runMain_running hrun _
  rw [← dispatchBy_arp hroom hother]
  obtain rfl | ⟨rfl, htype⟩ := h
  · exact runMain_running hrun _
  · rw [← htype]
    exact runMain_running hrun _

/-- Settles O36: the checks pass, and the reply of `arpReplyIn` goes out of the regular slot. -/
theorem arpRequestIsAnswered : Obligations.ArpRequestIsAnswered := by
  unfold Obligations.ArpRequestIsAnswered
  intro s i hrun hroom hhtype hptype hhlen hplen hhost htarget htakes hfits hw sha spa reply
  have haccepted : arpAccepted 1 s = true :=
    (arpAccepted_iff 1 s).2 ⟨hroom, hhtype, hptype, hhlen, hplen, rfl, hhost, htarget⟩
  have hreply : Memory.readBytes (arpReplyIn s) 0 42 = reply := readBytes_arpReplyIn s
  refine ⟨arpReplyIn s, hreply, fun a => read_arpReplyIn_outside s, ?_⟩
  rw [exec_of_takesArpRequest hrun (by omega) htakes, arpHandleBy_accepted haccepted hfits hw,
    outcome_done, ← hreply]
  rfl

/-- Settles O37: the handler drops the frame, whether it is reached directly or by dispatch. -/
theorem arpGivesNoReply : Obligations.ArpGivesNoReply := by
  unfold Obligations.ArpGivesNoReply
  intro s i hrun hi h
  have hdrop := arpHandleBy_not_target h
  obtain rfl | rfl | rfl := hi
  · exact runMain_done hrun (hdrop _)
  · exact runMain_done hrun (hdrop _)
  · exact runMain_done hrun ((dispatchBy_arp_cases s).elim id (·.trans (hdrop _)))

end Sys2Proof.Machine
end

section
/-! Proofs of the IP and UDP statements (44_ip_udp.md R240 to R252). What `IP.RECEIVE` does is said
once: it sums, and the frame that passes every check is demultiplexed, any other dropped
(`ipReceiveBy_eq`). What `IP.SEND` does is said by the slot it leaves (`slotSent`) and by which of
its two waits completes. -/

namespace Sys2Proof.Machine

/-! ### The checks of a received datagram (R240) -/

theorem udpOff_eq (s : State) : udpOff s = 14 + 4 * ipIhl s := rfl

/-- A range validates when the closed form of its fold is all ones (R144, R146). -/
theorem ckValid_ckOver {pseudo : List Byte} (heven : pseudo.length % 2 = 0) (bs : List Byte) :
    ckValid (ckOver pseudo bs) = decide (foldOf (pseudo ++ bs) = 0xffff) := by
  have hlt := foldOf_lt (pseudo ++ bs)
  rw [ckValid, ckOver, ← ckSum_append _ _ _ heven, ckFold_ckSum, decide_eq_decide,
    ← BitVec.toNat_inj, BitVec.toNat_ofNat, Nat.mod_eq_of_lt hlt]
  rfl

theorem ipHeaderAccepted_iff (proto : Byte) (s : State) : ipHeaderAccepted proto s = true ↔
    34 ≤ s.liveLen.toNat ∧ 5 ≤ ipIhl s ∧ 4 * ipIhl s + 8 ≤ ipTotalLen s ∧
      14 + ipTotalLen s ≤ s.liveLen.toNat ∧ proto = 17 ∧
      (s.ip.host = 0 ∨ ipDestination s = s.ip.host ∨ ipDestination s = s.ip.bcast ∨
        ipDestination s = 0xffffffff) := by
  simp only [ipHeaderAccepted, destinationAccepted, frameHas, Bool.and_eq_true, Bool.or_eq_true,
    decide_eq_true_eq, and_assoc, or_assoc]
  rfl

theorem udpLenAccepted_iff (s : State) : udpLenAccepted s = true ↔
    8 ≤ udpLen s ∧ udpLen s ≤ ipTotalLen s - 4 * ipIhl s := by
  simp only [udpLenAccepted, Bool.and_eq_true, decide_eq_true_eq]
  rfl

/-- R240's condition on the UDP checksum, by the closed form. -/
abbrev udpChecksumHolds (s : State) : Prop :=
  udpChecksum s = 0 ∨
    foldOf (pseudoBytes (ipSource s) (ipDestination s) (udpLen s) ++
      Memory.readBytes s.buf (14 + 4 * ipIhl s) (udpLen s)) = 0xffff

/-- The frame and its protocol pass together when each stage of `IP.RECEIVE` passes. -/
theorem ipFrameAccepted_iff (proto : Byte) (s : State) : proto = 17 ∧ ipFrameAccepted s ↔
    ipHeaderAccepted proto s = true ∧
      foldOf (Memory.readBytes s.buf 14 (4 * ipIhl s)) = 0xffff ∧ udpLenAccepted s = true ∧
      udpChecksumHolds s := by
  rw [ipHeaderAccepted_iff, udpLenAccepted_iff]
  exact ⟨fun ⟨hproto, hroom, hihl, htotal, hfits, hdest, hsum, hmin, hmax, hudp⟩ =>
      ⟨⟨hroom, hihl, htotal, hfits, hproto, hdest⟩, hsum, ⟨hmin, hmax⟩, hudp⟩,
    fun ⟨⟨hroom, hihl, htotal, hfits, hproto, hdest⟩, hsum, ⟨hmin, hmax⟩, hudp⟩ =>
      ⟨hproto, hroom, hihl, htotal, hfits, hdest, hsum, hmin, hmax, hudp⟩⟩

/-- Everything the UDP checksum check does: at most it sums again. -/
theorem udpChecksumCheck_eq {s : State} (hinit : s.ck.init = true) : ∃ c : Ck, c.init = true ∧
    udpChecksumCheck s = (decide (udpChecksumHolds s), s.setCk c) := by
  by_cases hzero : udpChecksum s = 0
  · refine ⟨s.ck, hinit, ?_⟩
    rw [udpChecksumCheck, if_pos hzero, decide_eq_true (.inl hzero)]
    rfl
  · refine ⟨ckOver (pseudoBytes (ipSource s) (ipDestination s) (udpLen s))
      (Memory.readBytes s.buf (14 + 4 * ipIhl s) (udpLen s)), ckOver_init _ _, ?_⟩
    rw [udpChecksumCheck, if_neg hzero, udpOff_eq, ckValidate,
      ckValid_ckOver (by simp [pseudoBytes]), decide_eq_decide.2 (or_iff_right hzero).symm]

/-- Everything `IP.RECEIVE` does: only the checksum state is written, and a frame that passes every
check is demultiplexed with its view (R240, R242). -/
theorem ipReceiveBy_eq (proto : Byte) (s : State) : ∃ c : Ck,
    (proto = 17 ∧ ipFrameAccepted s → c.init = true) ∧
    ipReceiveBy proto s =
      if proto = 17 ∧ ipFrameAccepted s then udpDemux (passView (s.setCk c))
      else done (s.setCk c) := by
  simp only [ipFrameAccepted_iff]
  by_cases hheader : ipHeaderAccepted proto s = true
  swap
  · refine ⟨s.ck, fun h => absurd h.1 hheader, ?_⟩
    rw [ipReceiveBy, if_neg hheader, if_neg fun h => hheader h.1]
    rfl
  have hsum : ckValid (ckOver [] (Memory.readBytes s.buf 14 (ipHeaderLen s))) =
      decide (foldOf (Memory.readBytes s.buf 14 (4 * ipIhl s)) = 0xffff) := ckValid_ckOver rfl _
  generalize hc : ckOver [] (Memory.readBytes s.buf 14 (ipHeaderLen s)) = c at hsum
  have hinit : c.init = true := hc ▸ ckOver_init _ _
  have hkept : udpLenAccepted (s.setCk c) = udpLenAccepted s := rfl
  rw [ipReceiveBy, if_pos hheader, ckValidate, hc]
  dsimp only
  rw [hsum, hkept]
  by_cases hvalid : foldOf (Memory.readBytes s.buf 14 (4 * ipIhl s)) = 0xffff ∧
      udpLenAccepted s = true
  swap
  · refine ⟨c, fun _ => hinit, ?_⟩
    rw [if_neg (by simpa using hvalid), if_neg fun ⟨_, hfold, hlen, _⟩ => hvalid ⟨hfold, hlen⟩]
  obtain ⟨hfold, hlen⟩ := hvalid
  obtain ⟨c', hinit', hcheck⟩ := udpChecksumCheck_eq (s := s.setCk c) hinit
  refine ⟨c', fun _ => hinit', ?_⟩
  rw [hcheck]
  simp only [decide_eq_true_eq, Bool.and_eq_true, hheader, hfold, hlen, and_self, true_and, if_true]
  rfl

/-- Dispatch by the IPv4 ethertype, with room for the Ethernet header and no self-echo (R175). -/
theorem dispatchBy_ipv4 {s : State} (hroom : 14 ≤ s.liveLen.toNat)
    (hother : ethSource s ≠ s.par.localMac) : dispatchBy 0x0800 s = ipReceive s := by
  have hhas : frameHas s 14 = true := decide_eq_true hroom
  rw [dispatchBy, hhas, if_neg (by simp), if_neg hother, if_neg (by decide), if_pos rfl]

/-- Every instruction that takes the live frame as a datagram is `IP.RECEIVE` of protocol 17. -/
theorem exec_of_takesDatagram {s : State} {i : Instr} (hrun : s.run = .running)
    (hroom : 14 ≤ s.liveLen.toNat) (h : takesDatagram s i) :
    exec i s = (ipReceiveBy 17 s).outcome := by
  obtain rfl | ⟨hproto, h⟩ := h
  · exact runMain_running hrun _
  have hreceive : ipReceive s = ipReceiveBy 17 s := congrArg (ipReceiveBy · s) hproto
  rw [← hreceive]
  obtain rfl | ⟨hother, h⟩ := h
  · exact runMain_running hrun _
  rw [← dispatchBy_ipv4 hroom hother]
  obtain rfl | ⟨rfl, htype⟩ := h
  · exact runMain_running hrun _
  · rw [← htype]
    exact runMain_running hrun _

/-! ### The handler of a port (R245) -/

theorem demuxBy_transfer {s : State} {port : Word16}
    (h : s.tftp.active = true ∧ port = s.tftp.clientPort) : demuxBy port s = tftpReceive s :=
  if_pos h

theorem demuxBy_dhcpClient {s : State} (h : ¬ (s.tftp.active = true ∧ 68 = s.tftp.clientPort)) :
    demuxBy 68 s = dhcpReceive s := (if_neg h).trans (if_pos rfl)

theorem demuxBy_unclaimed {s : State} {port : Word16}
    (h : ¬ (s.tftp.active = true ∧ port = s.tftp.clientPort)) (h68 : port ≠ 68) :
    demuxBy port s = done s := (if_neg h).trans (if_neg h68)

/-- A datagram whose ports lie inside the frame goes to its port's handler. -/
theorem udpDemuxAs_eq {s : State} (h : udpOff s + 4 ≤ s.liveLen.toNat) (port : Word16) :
    udpDemuxAs port s = demuxBy port s := if_pos ((portsInside_iff s).2 h)

/-- A datagram for neither handler ends in the demultiplexer, whatever room it has. -/
theorem udpDemux_unclaimed {s : State}
    (h : ¬ (s.tftp.active = true ∧ udpDestPort s = s.tftp.clientPort)) (h68 : udpDestPort s ≠ 68) :
    udpDemux s = done s := by
  rw [udpDemux, demuxBy_unclaimed h h68, ite_self]

/-- Settles O39: each instruction is the demultiplexer for its port, whose three cases are the
handlers. -/
theorem demuxMatchesPortsExactly : Obligations.DemuxMatchesPortsExactly := by
  unfold Obligations.DemuxMatchesPortsExactly
  intro s port i hrun _ hports hi
  have hexec : exec i s = (demuxBy port s).outcome := by
    rw [← udpDemuxAs_eq hports]
    obtain ⟨rfl, rfl⟩ | rfl | ⟨rfl, rfl⟩ | ⟨rfl, rfl⟩ | ⟨rfl, rfl⟩ := hi
    all_goals exact runMain_running hrun _
  rw [hexec]
  refine ⟨fun htransfer => ?_, fun hother => ⟨?_, fun h68 => ?_⟩⟩
  · rw [demuxBy_transfer htransfer]
    exact (runMain_running hrun _).symm
  · rintro rfl
    rw [demuxBy_dhcpClient hother]
    exact (runMain_running hrun _).symm
  · rw [demuxBy_unclaimed hother h68, outcome_done]

/-- Settles O38: both clauses are the two branches of `ipReceiveBy_eq`. -/
theorem onlyValidDatagramsAreDemultiplexed : Obligations.OnlyValidDatagramsAreDemultiplexed := by
  unfold Obligations.OnlyValidDatagramsAreDemultiplexed
  refine ⟨fun s i hrun haccepted htakes => ?_, fun s hrun hfails => ?_⟩
  · have hroom : 34 ≤ s.liveLen.toNat := haccepted.1
    obtain ⟨c, hinit, hreceive⟩ := ipReceiveBy_eq 17 s
    have hexec : exec i s = (udpDemux (passView (s.setCk c))).outcome := by
      rw [exec_of_takesDatagram hrun (by omega) htakes, hreceive, if_pos ⟨rfl, haccepted⟩]
    refine ⟨c, hinit ⟨rfl, haccepted⟩, ?_, fun h68 hother => ?_⟩
    · exact hexec.trans (runMain_running (s := passView (s.setCk c)) hrun _).symm
    · rw [hexec, udpDemux_unclaimed (s := passView (s.setCk c)) hother h68]
      rfl
  · obtain ⟨c, -, hreceive⟩ := ipReceiveBy_eq (ipProtocol s) s
    refine ⟨c, runMain_done hrun (hreceive.trans (if_neg fun ⟨hproto, haccepted⟩ => ?_))⟩
    exact hfails.elim (absurd hproto) (absurd haccepted)

/-! ### The header template (R250, R251) -/

section

variable {s : State} {len : Word16}

theorem ipReply_creates (hlive : s.live = true) (hview : s.ipView.isSome = true)
    (hports : 14 + 4 * ipIhl s + 4 ≤ s.liveLen.toNat) : ipReply len s =
      done (ipCreate (ethSource s) (ipSource s) (udpDestPort s) (udpSourcePort s) len s) := by
  rw [ipReply_eq, if_pos ⟨hlive, hview⟩, udpOff_eq, if_pos hports]

theorem ipReply_short (hlive : s.live = true) (hview : s.ipView.isSome = true)
    (hshort : s.liveLen.toNat < 14 + 4 * ipIhl s + 4) : ipReply len s = done s := by
  rw [ipReply_eq, if_pos ⟨hlive, hview⟩, udpOff_eq, if_neg (Nat.not_le.2 hshort)]

theorem ipReply_not_received (h : s.live = false ∨ s.ipView = none) :
    ipReply len s = .fault .hostProtocol := by
  refine (ipReply_eq len s).trans (if_neg fun ⟨hlive, hview⟩ => ?_)
  obtain hdead | hunseen := h
  · exact absurd hlive (by simp [hdead])
  · exact absurd hview (by simp [hunseen])

end

/-- Settles O40: both instructions end in `IP.CREATE` of the statement's addresses, and a reply is
otherwise one of its two other cases. -/
theorem createAndReplyWriteTemplate : Obligations.CreateAndReplyWriteTemplate := by
  unfold Obligations.CreateAndReplyWriteTemplate
  refine ⟨fun s i mac ip src dst len hrun hi => ?_,
    fun s len hrun hlive hview hshort => runMain_done hrun (ipReply_short hlive hview hshort),
    fun s len hrun hnone => (runMain_running hrun _).trans
      (congrArg Res.outcome (ipReply_not_received hnone))⟩
  have hexec : exec i s = .next (ipCreate mac ip src dst len s) := by
    obtain rfl | ⟨rfl, hlive, hview, hports, rfl, rfl, rfl, rfl⟩ := hi
    · exact runMain_running hrun fun s => done (ipCreate mac ip src dst len s)
    · exact runMain_done hrun (ipReply_creates hlive hview hports)
  obtain ⟨template, c, hread, hout, hinit, hcreate⟩ := ipCreate_template mac ip src dst len s
  refine ⟨template, c, hread, hout, hinit, ?_⟩
  rw [hexec, hcreate]
  rfl

/-! ### Sending a frame (R252, R178) -/

theorem boundedWait_expired {s : State} (h : ¬ waitsComplete s 1) :
    boundedWait s = .stop (enterFatal (usePoll s) 7) :=
  if_neg (mt (waitsComplete_one s).2 h)

/-- Two waits complete when the first does and the next one does after it. -/
theorem waitsComplete_two_iff (s : State) :
    waitsComplete s 2 ↔ waitsComplete s 1 ∧ waitsComplete (usePoll s) 1 := by
  refine ⟨fun h => ⟨waitsComplete_mono h (by decide), waitsComplete_usePoll h⟩, ?_⟩
  rintro ⟨hfirst, hnext⟩ k hk
  obtain rfl | rfl : k = 0 ∨ k = 1 := by omega
  · exact hfirst 0 Nat.one_pos
  · exact hnext 0 Nat.one_pos

/-- The slot's state once the stream write of a send is done: the frame at its start (R252). -/
def slotWritten (slot : Slot) (frame : List Byte) (s : State) : State :=
  (usePoll s).setCtrl (Memory.write s.ctrl (slotStart s.par slot) frame)

/-- The state in which the transmit's wait ends: the slot written, a priority frame tracked, and two
waits drawn (R178, R252). -/
def slotSent (slot : Slot) (frame : List Byte) (s : State) : State :=
  { s with
    ctrl := Memory.write s.ctrl
      (match slot with | .reg => s.par.txRegStart | .prio => s.par.txPrioStart) frame
    rtx := match slot with
      | .reg => s.rtx
      | .prio => { prioEnd := s.par.txPrioStart + frame.length, timeout := s.par.tMin,
                   wait := s.par.tMin, start := s.ticks }
    draws := afterWaits s 2 }

theorem usePoll_trackSlot_slotWritten (slot : Slot) (frame : List Byte) (s : State) :
    usePoll (trackSlot slot frame.length (slotWritten slot frame s)) = slotSent slot frame s := by
  cases slot <;> rfl

theorem ipSend_mismatch {s : State} {payload : List Byte}
    (h : (Memory.be16 s.tpl 38).toNat ≠ 8 + payload.length) (slot : Slot) :
    ipSend slot payload s = .fault .lengthMismatch := if_neg h

section

variable {s : State} {slot : Slot} {payload frame : List Byte}
  (hframe : Memory.readBytes s.tpl 0 42 ++ payload = frame)
  (hlen : (Memory.be16 s.tpl 38).toNat = 8 + payload.length)

include hframe hlen

/-- A send of the right length is its stream write and then its transmission. -/
theorem ipSend_eq : ipSend slot payload s =
    (linkStreamWrite (slotStart s.par slot) frame s).andThen (ethTransmit slot frame.length) := by
  rw [ipSend, if_pos hlen, ← hframe, List.length_append, readBytes_length]

theorem ipSend_write_expired (hw : ¬ waitsComplete s 1) :
    ipSend slot payload s = .stop (enterFatal (usePoll s) 7) := by
  rw [ipSend_eq hframe hlen, linkStreamWrite, boundedWait_expired hw]
  rfl

theorem ipSend_written (hw : waitsComplete s 1) :
    ipSend slot payload s = ethTransmit slot frame.length (slotWritten slot frame s) := by
  rw [ipSend_eq hframe hlen, linkStreamWrite_ok hw]
  rfl

end

/-- A frame that fits goes out of its slot when the transmit's wait completes, and is left in it,
tracked, when that wait is fatal. -/
theorem ethTransmit_slotWritten {s : State} {slot : Slot} {frame : List Byte}
    (hfits : frame.length ≤ s.par.txSlotSize) :
    ethTransmit slot frame.length (slotWritten slot frame s) =
      if waitsComplete (usePoll s) 1 then done ((slotSent slot frame s).emit (.tx slot frame false))
      else .stop (enterFatal (slotSent slot frame s) 7) := by
  have hwaits : waitsComplete (usePoll s) 1 ↔ pollsNeeded (slotWritten slot frame s) ≤
      (slotWritten slot frame s).par.pollCap := waitsComplete_one (usePoll s)
  have hframe : Memory.readBytes (slotWritten slot frame s).ctrl
      (slotStart (slotWritten slot frame s).par slot) frame.length = frame :=
    readBytes_write_same s.ctrl (slotStart s.par slot) frame
  rw [ethTransmit_eq (s := slotWritten slot frame s) hfits, usePoll_trackSlot_slotWritten, hframe]
  simp only [← hwaits]
  rfl

/-- Settles O41: the length first, then the stream write's wait, then the slot's size, then the
transmit's wait. -/
theorem sendTransmitsTemplateAndPayload : Obligations.SendTransmitsTemplateAndPayload := by
  unfold Obligations.SendTransmitsTemplateAndPayload
  intro s slot payload hrun
  have hexec : exec (.ipSend slot payload) s = (ipSend slot payload s).outcome :=
    runMain_running hrun _
  have hlength : 42 + payload.length = (Memory.readBytes s.tpl 0 42 ++ payload).length := by
    rw [List.length_append, readBytes_length]
  rw [hexec, hlength]
  generalize hframe : Memory.readBytes s.tpl 0 42 ++ payload = frame
  refine ⟨fun hmismatch => congrArg Res.outcome (ipSend_mismatch hmismatch slot),
    fun hlen => ⟨fun hexpired => ?_, fun hw hover => ?_, fun hfits hfirst hboth => ?_,
      fun hfits hboth => ?_⟩⟩
  · exact congrArg Res.outcome (ipSend_write_expired hframe hlen hexpired)
  · have hover' : (slotWritten slot frame s).par.txSlotSize < frame.length := hover
    rw [ipSend_written hframe hlen hw, ethTransmit_overflow hover']
    rfl
  · have hsecond : ¬ waitsComplete (usePoll s) 1 :=
      fun h => hboth ((waitsComplete_two_iff s).2 ⟨hfirst, h⟩)
    rw [ipSend_written hframe hlen hfirst, ethTransmit_slotWritten hfits, if_neg hsecond]
    rfl
  · obtain ⟨hfirst, hsecond⟩ := (waitsComplete_two_iff s).1 hboth
    rw [ipSend_written hframe hlen hfirst, ethTransmit_slotWritten hfits, if_pos hsecond]
    rfl

end Sys2Proof.Machine
end

section
/-! Proofs of the option statements (45_dhcp.md R300 to R307). One pass of the loop is said once: a
code other than PAD and END is taken or makes the message not well formed (`optPass_option`). What an
iterator has still to read (`Unread`) determines its pass, and a list is read item by item
(`optRun_items`). -/

namespace Sys2Proof.Machine

/-! ### One pass of the loop (R300 to R305) -/

/-- The length byte of the option at the iterator's place (R101). -/
def optLength (buf : Memory) (q : OptParse) : Nat := (Memory.read buf (q.k + 1)).toNat

/-- The option at the iterator's place ends inside the data (R303). -/
abbrev optFits (buf : Memory) (q : OptParse) : Prop :=
  q.k + 1 < q.stop ∧ q.k + 2 + optLength buf q ≤ q.stop

/-- The length is one that the code allows: a message type is not empty, and a broadcast address has
four bytes (R304, R305). -/
abbrev optLengthAllowed (c : Byte) (l : Nat) : Prop := (c = 53 → l ≠ 0) ∧ (c = 28 → l = 4)

/-- The iterator after a well-formed option with a length byte (R302, R304, R305). -/
def optTaken (buf : Memory) (c : Byte) (q : OptParse) : OptParse :=
  { q with
    k := q.k + 2 + optLength buf q
    type := if c = 53 then some (Memory.read buf (q.k + 2)) else q.type
    bcast := if c = 28 then some (Memory.be32 buf (q.k + 2)) else q.bcast }

/-- The iterator that has found the message not well formed (R303). -/
def optRefused (q : OptParse) : OptParse := { q with status := .notWellFormed }

/-- The iterator at the end of the list (R300, R301). -/
def optFinished (q : OptParse) : OptParse := { q with status := .done }

theorem optPass_pad (buf : Memory) (q : OptParse) :
    optPass buf 0 q = { q with k := q.k + 1 } := if_pos rfl

theorem optPass_end (buf : Memory) (q : OptParse) : optPass buf 255 q = optFinished q :=
  (if_neg (by decide)).trans (if_pos rfl)

/-- Everything a pass does for a code with a length byte. -/
theorem optPass_option {c : Byte} (hpad : c ≠ 0) (hend : c ≠ 255) (buf : Memory) (q : OptParse) :
    optPass buf c q =
      if optFits buf q ∧ optLengthAllowed c (optLength buf q) then optTaken buf c q
      else optRefused q := by
  have hlength : (Memory.read buf (q.k + 1)).toNat = optLength buf q := rfl
  simp only [optPass, hlength, if_neg hpad, if_neg hend, optTaken, optRefused]
  by_cases hcode : q.stop ≤ q.k + 1
  · rw [if_pos hcode, if_neg (by omega)]
  by_cases hvalue : q.stop < q.k + 2 + optLength buf q
  · rw [if_neg hcode, if_pos hvalue, if_neg (by omega)]
  have hfits : optFits buf q := ⟨Nat.not_le.1 hcode, Nat.not_lt.1 hvalue⟩
  rw [if_neg hcode, if_neg hvalue]
  simp only [and_iff_right hfits]
  by_cases htype : c = 53
  · subst htype
    by_cases hl : optLength buf q = 0 <;> simp [optLengthAllowed, hl]
  by_cases hbcast : c = 28
  · subst hbcast
    by_cases hl : optLength buf q = 4 <;> simp [optLengthAllowed, hl]
  · have hallowed : optLengthAllowed c (optLength buf q) :=
      ⟨fun h => absurd h htype, fun h => absurd h hbcast⟩
    rw [if_neg htype, if_neg hbcast, if_pos hallowed, if_neg htype, if_neg hbcast]

/-! ### A lone option unit (log 15) -/

/-- A lone unit is one pass of the iterator in progress, whose data lies inside the live frame. -/
theorem optUnit_running {s : State} (hopt : s.opt.status = .running) (hleft : s.opt.k < s.opt.stop)
    (hinside : s.opt.stop ≤ s.liveLen.toNat) (c : Byte) :
    optUnit c s = s.setOpt (optPass s.buf c s.opt) := by
  have hcurrent : optCurrent s = some s.opt := by
    rw [optCurrent, if_pos hopt, frameHas, if_pos (decide_eq_true hinside)]
  rw [optUnit, hcurrent]
  exact (if_neg (Nat.ne_of_lt hleft)).trans (if_neg (Nat.lt_asymm hleft))

theorem runMain_optUnit {s : State} (hrun : s.run = .running) (c : Byte) :
    runMain s (fun s => done (optUnit c s)) = .next (optUnit c s) := runMain_done hrun rfl

/-- An option that R102 lists without a meaning for the engine, and any that it does not list, is the
unit of a code with no case of its own (R302). -/
theorem exec_skippedOption {s : State} {i : Instr} (hrun : s.run = .running)
    (hi : i ∈ [.optHostname, .optRequestedIp, .optLeaseTime, .optServerIdentifier,
        .optParameterRequestList, .optMaxMessageSize, .optClientIdentifier] ∨
      (∃ code, i = .optUnknown code ∧ code ∉ listedOptions)) :
    ∃ c : Byte, c ≠ 0 ∧ c ≠ 255 ∧ c ≠ 53 ∧ c ≠ 28 ∧ exec i s = .next (optUnit c s) := by
  obtain hi | ⟨c, rfl, hc⟩ := hi
  · simp only [List.mem_cons, List.not_mem_nil, or_false] at hi
    obtain rfl | rfl | rfl | rfl | rfl | rfl | rfl := hi
    all_goals refine ⟨_, ?_, ?_, ?_, ?_, runMain_optUnit hrun _⟩ <;> decide
  · refine ⟨c, ?_, ?_, ?_, ?_, runMain_optUnit hrun c⟩
    all_goals rintro rfl; exact hc (by decide)

/-- Settles O49: each unit is one pass, and the conditions of the three kinds of option are what
`optPass_option` asks of their codes. -/
theorem optionUnitsAdvanceTheIterator : Obligations.OptionUnitsAdvanceTheIterator := by
  unfold Obligations.OptionUnitsAdvanceTheIterator
  intro s i hrun hopt hleft hinside l fits skipped bad
  have hunit (c : Byte) : runMain s (fun s => done (optUnit c s)) =
      .next (s.setOpt (optPass s.buf c s.opt)) := by
    rw [← optUnit_running hopt hleft hinside c, runMain_optUnit hrun]
  have htype : exec .optMessageType s = _ := hunit 53
  have hbcast : exec .optBroadcastAddress s = _ := hunit 28
  rw [optPass_option (by decide) (by decide)] at htype hbcast
  refine ⟨(hunit 0).trans (by rw [optPass_pad]; rfl), (hunit 255).trans (by rw [optPass_end]; rfl),
    fun hi => ?_, fun h => ?_, fun h => ?_, fun h => ?_, fun h => ?_⟩
  · obtain ⟨c, h0, h255, h53, h28, hexec⟩ := exec_skippedOption hrun hi
    have hallowed : optLengthAllowed c l := ⟨fun h => absurd h h53, fun h => absurd h h28⟩
    rw [hexec, optUnit_running hopt hleft hinside, optPass_option h0 h255]
    refine ⟨fun hfits => ?_, fun hshort => ?_⟩
    · rw [if_pos ⟨hfits, hallowed⟩, optTaken, if_neg h53, if_neg h28]
      rfl
    · rw [if_neg fun h => hshort h.1]
      rfl
  · rw [htype, if_pos ⟨h.1, fun _ => h.2, fun h28 => absurd h28 (by decide)⟩]
    rfl
  · rw [htype, if_neg fun ⟨hfits, hnonempty, _⟩ => h ⟨hfits, hnonempty rfl⟩]
    rfl
  · rw [hbcast, if_pos ⟨h.1, fun h53 => absurd h53 (by decide), fun _ => h.2⟩]
    rfl
  · rw [hbcast, if_neg fun ⟨hfits, _, hfour⟩ => h ⟨hfits, hfour rfl⟩]
    rfl

/-! ### The loop -/

theorem optRun_running {q : OptParse} (h : q.status = .running) (buf : Memory) (fuel : Nat) :
    optRun buf (fuel + 1) q = optRun buf fuel (optNext buf q) := if_pos h

theorem optRun_ended {q : OptParse} (h : q.status ≠ .running) (buf : Memory) (fuel : Nat) :
    optRun buf fuel q = q := by
  cases fuel with
  | zero => rfl
  | succ fuel => exact if_neg h

/-! ### Only the data from the iterator's place on is read (R307) -/

/-- Two buffers with the same bytes from an address on. -/
abbrev agreeFrom (a : Nat) (m m' : Memory) : Prop := ∀ x, a ≤ x → Memory.read m x = Memory.read m' x

theorem optPass_congr {m m' : Memory} {q : OptParse} (h : agreeFrom q.k m m') (c : Byte) :
    optPass m c q = optPass m' c q := by
  by_cases hpad : c = 0
  · rw [hpad, optPass_pad, optPass_pad]
  by_cases hend : c = 255
  · rw [hend, optPass_end, optPass_end]
  have hlength : optLength m q = optLength m' q := congrArg BitVec.toNat (h _ (by omega))
  have haddress : Memory.be32 m (q.k + 2) = Memory.be32 m' (q.k + 2) :=
    congrArg word32 (readBytes_congr fun x hx _ => h x (by omega))
  rw [optPass_option hpad hend, optPass_option hpad hend]
  simp only [optFits, optTaken, hlength, haddress, h (q.k + 2) (by omega)]

theorem optNext_congr {m m' : Memory} {q : OptParse} (h : agreeFrom q.k m m') :
    optNext m q = optNext m' q := by
  rw [optNext, optNext, h q.k le_rfl, optPass_congr h]

theorem optPass_k_le (buf : Memory) (c : Byte) (q : OptParse) : q.k ≤ (optPass buf c q).k := by
  by_cases hpad : c = 0
  · rw [hpad, optPass_pad]
    exact Nat.le_succ _
  by_cases hend : c = 255
  · rw [hend, optPass_end]
    exact le_rfl
  rw [optPass_option hpad hend]
  split
  · simp only [optTaken]
    omega
  · exact le_rfl

theorem optNext_k_le (buf : Memory) (q : OptParse) : q.k ≤ (optNext buf q).k := by
  unfold optNext
  split
  · exact le_rfl
  split
  · exact le_rfl
  · exact optPass_k_le _ _ _

theorem optRun_congr {m m' : Memory} (fuel : Nat) {q : OptParse} (h : agreeFrom q.k m m') :
    optRun m fuel q = optRun m' fuel q := by
  induction fuel generalizing q with
  | zero => rfl
  | succ fuel ih =>
    have hnext : agreeFrom (optNext m' q).k m m' := fun x hx => h x ((optNext_k_le m' q).trans hx)
    rw [optRun, optRun, optNext_congr h, ih hnext]

/-- Settles O50: the cookie lies before the first option, and the loop reads nothing before it. -/
theorem cookieIsNotChecked : Obligations.CookieIsNotChecked := by
  unfold Obligations.CookieIsNotChecked
  intro buf p len cookie hlen
  refine optRun_congr _ fun x hx => ?_
  change p + 240 ≤ x at hx
  rw [read_write, if_neg (by omega)]

/-! ### Reading a list item by item -/

/-- The first byte of a range that is not empty. -/
theorem head?_of_readBytes {m : Memory} {a n : Nat} {bs : List Byte}
    (h : Memory.readBytes m a n = bs) (hne : bs.length ≠ 0) : some (Memory.read m a) = bs.head? := by
  obtain ⟨b, rest, rfl⟩ := List.exists_cons_of_length_pos (Nat.pos_of_ne_zero hne)
  obtain ⟨-, -, hb, -⟩ := readBytes_cons h
  rw [hb, List.head?_cons]

/-- The bytes that an iterator in progress has still to read. -/
structure Unread (buf : Memory) (q : OptParse) (bs : List Byte) : Prop where
  running : q.status = .running
  stop : q.stop = q.k + bs.length
  bytes : Memory.readBytes buf q.k bs.length = bs

/-- The message type after an item (R304). -/
def OptItem.typeAfter (acc : Option Byte) : OptItem → Option Byte
  | .pad => acc
  | .opt code value => if code = 53 then value.head? else acc

/-- The broadcast address after an item (R305). -/
def OptItem.bcastAfter (acc : Option Word32) : OptItem → Option Word32
  | .pad => acc
  | .opt code value => if code = 28 then some (word32 value) else acc

theorem lastType_eq (items : List OptItem) : lastType items = items.foldl OptItem.typeAfter none :=
  rfl

theorem lastBroadcast_eq (items : List OptItem) :
    lastBroadcast items = items.foldl OptItem.bcastAfter none := rfl

/-- The iterator after a well-formed item. -/
def OptItem.after (i : OptItem) (q : OptParse) : OptParse :=
  { q with k := q.k + i.bytes.length, type := i.typeAfter q.type, bcast := i.bcastAfter q.bcast }

theorem OptItem.legal_opt_iff {c : Byte} {value : List Byte} : (OptItem.opt c value).legal = true ↔
    c ≠ 0 ∧ c ≠ 255 ∧ value.length < 256 ∧ optLengthAllowed c value.length := by
  simp only [OptItem.legal, Bool.and_eq_true, Bool.or_eq_true, decide_eq_true_eq, and_assoc,
    optLengthAllowed, ne_eq, List.length_eq_zero_iff, imp_iff_not_or]

namespace Unread

variable {buf : Memory} {q : OptParse}

theorem optNext_nil (h : Unread buf q []) : optNext buf q = optFinished q :=
  if_pos h.stop.symm

variable {c : Byte} {bs : List Byte}

theorem optNext_cons (h : Unread buf q (c :: bs)) : optNext buf q = optPass buf c q := by
  obtain ⟨n, -, hc, -⟩ := readBytes_cons h.bytes
  have hstop := h.stop
  rw [List.length_cons] at hstop
  rw [optNext, if_neg (by omega), if_neg (by omega), hc]

/-- The length byte of an option is the second byte left to read. -/
theorem optLength_eq {l : Byte} (h : Unread buf q (c :: l :: bs)) : optLength buf q = l.toNat := by
  obtain ⟨n, -, -, hrest⟩ := readBytes_cons h.bytes
  obtain ⟨-, -, hl, -⟩ := readBytes_cons hrest
  exact congrArg BitVec.toNat hl

/-- What is left once some bytes are passed. -/
theorem advance {front : List Byte} (h : Unread buf q (front ++ bs)) {q' : OptParse}
    (hrun : q'.status = .running) (hk : q'.k = q.k + front.length) (hstop : q'.stop = q.stop) :
    Unread buf q' bs where
  running := hrun
  stop := by rw [hstop, h.stop, hk, List.length_append, Nat.add_assoc]
  bytes := by
    obtain ⟨n, hn, -, hrest⟩ := readBytes_app h.bytes
    rw [List.length_append, Nat.add_left_cancel_iff] at hn
    rw [hk, hn, hrest]

/-- An option with a value is taken with that value (R304, R305). -/
theorem optTaken_opt {value : List Byte} (h : Unread buf q ((OptItem.opt c value).bytes ++ bs))
    (hl : optLength buf q = value.length) (hallowed : optLengthAllowed c value.length) :
    optTaken buf c q = (OptItem.opt c value).after q := by
  have hvalue : Memory.readBytes buf (q.k + 2) value.length = value :=
    readBytes_middle (pre := [c, BitVec.ofNat 8 value.length]) (post := bs) h.bytes
  have hk : (OptItem.opt c value).bytes.length = 2 + value.length := by
    simp only [OptItem.bytes, List.length_cons]
    omega
  have htype : (if c = 53 then some (Memory.read buf (q.k + 2)) else q.type) =
      OptItem.typeAfter q.type (.opt c value) :=
    ite_congr rfl (fun h53 => head?_of_readBytes hvalue (hallowed.1 h53))
      fun _ => rfl
  have hbcast : (if c = 28 then some (Memory.be32 buf (q.k + 2)) else q.bcast) =
      OptItem.bcastAfter q.bcast (.opt c value) :=
    ite_congr rfl (fun h28 => by rw [Memory.be32, ← hallowed.2 h28, hvalue]) fun _ => rfl
  rw [optTaken, OptItem.after, hl, htype, hbcast, hk, Nat.add_assoc]

/-- A pass reads a well-formed item whole. -/
theorem optNext_item {i : OptItem} (hi : i.legal = true) (h : Unread buf q (i.bytes ++ bs)) :
    optNext buf q = i.after q := by
  cases i with
  | pad =>
    rw [optNext_cons h, optPass_pad]
    rfl
  | opt c value =>
    obtain ⟨hpad, hend, hshort, hallowed⟩ := OptItem.legal_opt_iff.1 hi
    have hl : optLength buf q = value.length := by
      rw [optLength_eq h, BitVec.toNat_ofNat, Nat.mod_eq_of_lt hshort]
    have hstop := h.stop
    simp only [OptItem.bytes, List.length_append, List.length_cons] at hstop
    have hfits : optFits buf q := by
      rw [optFits, hl]
      omega
    rw [optNext_cons h, optPass_option hpad hend, if_pos ⟨hfits, hl ▸ hallowed⟩,
      optTaken_opt h hl hallowed]

/-- An option that is cut short or of a length its code does not allow (R303 to R305). -/
theorem optNext_badTail (hbad : badTail bs = true) (h : Unread buf q bs) :
    optNext buf q = optRefused q := by
  match bs with
  | [] => cases hbad
  | [c] =>
    simp only [badTail, Bool.and_eq_true, decide_eq_true_eq] at hbad
    have hstop := h.stop
    rw [List.length_singleton] at hstop
    rw [optNext_cons h, optPass_option hbad.1 hbad.2, if_neg (by omega)]
  | c :: l :: value =>
    simp only [badTail, Bool.and_eq_true, Bool.or_eq_true, decide_eq_true_eq] at hbad
    obtain ⟨⟨hpad, hend⟩, hbad⟩ := hbad
    have hl : optLength buf q = l.toNat := h.optLength_eq
    have hstop := h.stop
    simp only [List.length_cons] at hstop
    rw [optNext_cons h, optPass_option hpad hend, if_neg]
    rintro ⟨⟨-, hfits⟩, htype, hbcast⟩
    rw [hl] at hfits htype hbcast
    obtain (hcut | ⟨rfl, rfl⟩) | ⟨rfl, hne⟩ := hbad
    · omega
    · exact htype rfl rfl
    · exact hne (BitVec.eq_of_toNat_eq (hbcast rfl))

end Unread

/-- The loop reads the items of a list, one pass for each. -/
theorem optRun_items {buf : Memory} {rest : List Byte} (fuel : Nat) (items : List OptItem)
    {q : OptParse} (hlegal : items.all OptItem.legal = true)
    (h : Unread buf q (itemBytes items ++ rest)) :
    ∃ q', optRun buf (fuel + items.length) q = optRun buf fuel q' ∧ Unread buf q' rest ∧
      q'.type = items.foldl OptItem.typeAfter q.type ∧
      q'.bcast = items.foldl OptItem.bcastAfter q.bcast := by
  induction items generalizing q with
  | nil => exact ⟨q, rfl, h, rfl, rfl⟩
  | cons i items ih =>
    rw [List.all_cons, Bool.and_eq_true] at hlegal
    rw [itemBytes, List.flatMap_cons, List.append_assoc] at h
    have hnext := h.optNext_item hlegal.1
    obtain ⟨q', hrun, hrest⟩ := ih hlegal.2 (h.advance (q' := i.after q) h.running rfl rfl)
    refine ⟨q', ?_, hrest⟩
    rw [List.length_cons, ← Nat.add_assoc, optRun_running h.running, hnext, hrun]

/-- A list has at least a byte for each item. -/
theorem length_le_itemBytes (items : List OptItem) : items.length ≤ (itemBytes items).length := by
  induction items with
  | nil => exact le_rfl
  | cons i items ih =>
    have hi : 1 ≤ i.bytes.length := by cases i <;> simp [OptItem.bytes]
    rw [itemBytes, List.flatMap_cons, List.length_append, List.length_cons]
    rw [itemBytes] at ih
    omega

/-- The parser reads the items at the start of a message's options, and has passes left for what
follows them. -/
theorem parseOptions_items {buf : Memory} {p len : Nat} {items : List OptItem} {rest : List Byte}
    (hlen : 240 ≤ len) (hlegal : items.all OptItem.legal = true)
    (h : Memory.readBytes buf (p + 240) (len - 240) = itemBytes items ++ rest) :
    ∃ q fuel, parseOptions buf p len = optRun buf (fuel + 1) q ∧ Unread buf q rest ∧
      q.type = lastType items ∧ q.bcast = lastBroadcast items := by
  have hbytes := congrArg List.length h
  rw [readBytes_length] at hbytes
  have hstart : Unread buf (optStart p len) (itemBytes items ++ rest) :=
    ⟨rfl, by rw [← hbytes]; simp only [optStart]; omega, by rw [← hbytes]; exact h⟩
  have hpasses : items.length ≤ len := by
    have := length_le_itemBytes items
    rw [List.length_append] at hbytes
    omega
  obtain ⟨q, hrun, hrest⟩ := optRun_items (len - items.length + 1) items hlegal hstart
  have hfuel : len - items.length + 1 + items.length = len + 1 := by omega
  rw [lastType_eq, lastBroadcast_eq]
  exact ⟨q, len - items.length, by rw [← hrun, hfuel]; rfl, hrest⟩

/-- A list ends with the pass that follows its items. -/
theorem parseOptions_ends {buf : Memory} {p len : Nat} {items : List OptItem} {rest : List Byte}
    (hlen : 240 ≤ len) (hlegal : items.all OptItem.legal = true)
    (h : Memory.readBytes buf (p + 240) (len - 240) = itemBytes items ++ rest)
    {last : OptParse → OptParse} (hlast : ∀ q, Unread buf q rest → optNext buf q = last q)
    (hends : ∀ q, (last q).status ≠ .running) :
    ∃ q, parseOptions buf p len = last q ∧ q.type = lastType items ∧
      q.bcast = lastBroadcast items := by
  obtain ⟨q, fuel, hparse, hunread, hrest⟩ := parseOptions_items hlen hlegal h
  refine ⟨q, ?_, hrest⟩
  rw [hparse, optRun_running hunread.running, hlast q hunread, optRun_ended (hends q)]

theorem exec_dhcpParseOptions {s : State} {p len : Nat} (hrun : s.run = .running)
    (hdata : udpData s = some (p, len)) : exec .dhcpParseOptions s = .next
      ((s.setOpt (parseOptions s.buf p len)).setResult (optResult (parseOptions s.buf p len))) := by
  simp only [exec, execDhcpParseOptions, runMain_running hrun, hdata, outcome_done]

/-- Settles O47: after the items the next pass ends the list, at END or at the end of the data. -/
theorem wellFormedOptionsParse : Obligations.WellFormedOptionsParse := by
  unfold Obligations.WellFormedOptionsParse
  intro s p len items rest hrun hdata hlen hlegal hbytes
  have hends (q : OptParse) : (optFinished q).status ≠ .running := by simp [optFinished]
  obtain ⟨q, hparse, htype, hbcast⟩ : ∃ q, parseOptions s.buf p len = optFinished q ∧
      q.type = lastType items ∧ q.bcast = lastBroadcast items := by
    obtain hbytes | hbytes := hbytes
    · rw [← List.append_nil (itemBytes items)] at hbytes
      exact parseOptions_ends hlen hlegal hbytes (fun q hq => hq.optNext_nil) hends
    · exact parseOptions_ends hlen hlegal hbytes
        (fun q hq => hq.optNext_cons.trans (optPass_end s.buf q)) hends
  refine ⟨optFinished q, rfl, htype, hbcast, ?_⟩
  rw [exec_dhcpParseOptions hrun hdata, hparse, ← htype, ← hbcast]
  rfl

/-! ### A message that is not well formed (R285, R303) -/

/-- What `DHCP.RECEIVE` does with a message: one long enough and well formed is classified, any other
is dropped. -/
theorem dhcpReceiveBy_eq {s : State} {p len : Nat} (hdata : udpData s = some (p, len))
    (typeOf : OptParse → Option Byte) : dhcpReceiveBy typeOf s =
      if 240 ≤ len ∧ (parseOptions s.buf p len).status = .done then
        dhcpClassify (typeOf (parseOptions s.buf p len)) (parseOptions s.buf p len).bcast
          (Memory.be32 s.buf (p + 16)) s
      else done s := by
  simp only [dhcpReceiveBy, hdata]
  by_cases hlen : 240 ≤ len
  · simp only [if_neg (Nat.not_lt.2 hlen), hlen, true_and]
  · rw [if_pos (Nat.not_le.1 hlen), if_neg fun h => hlen h.1]

/-- Settles O48: the pass after the items refuses, so the message is not classified. -/
theorem malformedOptionsDropTheMessage : Obligations.MalformedOptionsDropTheMessage := by
  unfold Obligations.MalformedOptionsDropTheMessage
  intro s p len items tail hrun hdata hlen hlegal hbad hbytes
  obtain ⟨q, hparse, -⟩ := parseOptions_ends hlen hlegal hbytes
    (fun q hq => hq.optNext_badTail hbad) (fun q => by simp [optRefused])
  refine ⟨runMain_done hrun ?_, optRefused q, rfl, ?_⟩
  · rw [dhcpReceive, dhcpReceiveBy_eq hdata, hparse, if_neg fun h => by cases h.2]
  · rw [exec_dhcpParseOptions hrun hdata, hparse]
    rfl

end Sys2Proof.Machine
end

section
/-! Proofs of the statements about DHCP messages (45_dhcp.md R281 to R296): the layout of what is
sent, and what a message received does. `dhcpReceiveBy_eq` says when a message is classified; here is
what each arm of the classification does, and which messages are in none. -/

namespace Sys2Proof.Machine

/-! ### The layout of a message (R281) -/

/-- The 240 bytes before the options of an outbound message (R281). -/
def dhcpHeader (p : Params) : List Byte :=
  [1, 1, 6, 0] ++ bytes32 p.dhcpXid ++ List.replicate 20 0 ++ bytes48 p.localMac ++
    List.replicate 202 0 ++ [0x63, 0x82, 0x53, 0x63]

theorem dhcpHeader_length (p : Params) : (dhcpHeader p).length = 240 := by
  simp only [dhcpHeader, List.length_append, List.length_cons, List.length_nil,
    List.length_replicate, bytes32_length, bytes48_length]

/-- A message is its header, its options and its padding (R281). -/
theorem dhcpMessage_eq (p : Params) (o : List Byte) : dhcpMessage p o =
    dhcpHeader p ++ o ++ List.replicate (p.dhcpPadTo - (240 + o.length)) 0 := by
  have hshort : bytes16 0 ++ bytes16 0 ++ List.replicate 16 0 = List.replicate 20 0 := rfl
  have hlong : List.replicate 10 0 ++ List.replicate 192 0 = List.replicate 202 (0 : Byte) :=
    List.replicate_append_replicate
  have hheader : [1, 1, 6, 0] ++ bytes32 p.dhcpXid ++ bytes16 0 ++ bytes16 0 ++
      List.replicate 16 0 ++ bytes48 p.localMac ++ List.replicate 10 0 ++ List.replicate 192 0 ++
      [0x63, 0x82, 0x53, 0x63] = dhcpHeader p := by
    rw [dhcpHeader, ← hshort, ← hlong]
    simp only [List.append_assoc]
  rw [dhcpMessage, hheader, List.length_append, dhcpHeader_length]

/-- What is left of a string once a further part is taken off. -/
theorem drop_add_of_drop_eq {m front rest : List Byte} {k n : Nat} (h : m.drop k = front ++ rest)
    (hn : front.length = n) : m.drop (k + n) = rest := by
  rw [← List.drop_drop, h, List.drop_left' hn]

/-- Settles O42: the parts of the message are taken off one after the other. -/
theorem dhcpMessageLayout : Obligations.DhcpMessageLayout := by
  unfold Obligations.DhcpMessageLayout
  intro p o offered server
  dsimp only
  generalize hpad : List.replicate (p.dhcpPadTo - (240 + o.length)) (0 : Byte) = pad
  have hm : dhcpMessage p o = ([1, 1, 6, 0] ++ bytes32 p.dhcpXid ++ List.replicate 20 0) ++
      (bytes48 p.localMac ++ (List.replicate 202 0 ++ ([0x63, 0x82, 0x53, 0x63] ++ (o ++ pad)))) := by
    rw [dhcpMessage_eq, hpad, dhcpHeader]
    simp only [List.append_assoc]
  have hlength := dhcpMessage_length p o
  generalize dhcpMessage p o = m at hm hlength
  have hstart : ([1, 1, 6, 0] ++ bytes32 p.dhcpXid ++ List.replicate 20 0).length = 28 := by simp
  have hmac : m.drop 28 = _ := hm ▸ List.drop_left' hstart
  have hzero : m.drop 34 = _ := drop_add_of_drop_eq hmac (bytes48_length _)
  have hcookie : m.drop 236 = _ := drop_add_of_drop_eq hzero List.length_replicate
  have hoptions : m.drop 240 = _ := drop_add_of_drop_eq hcookie rfl
  have hpadding : m.drop (240 + o.length) = pad := drop_add_of_drop_eq hoptions rfl
  refine ⟨hlength.trans (Nat.max_comm _ _), ?_, ?_, ?_, ?_, ?_, ?_, rfl, ?_⟩
  · rw [hm, List.take_left' hstart]
  · rw [hmac, List.take_left' (bytes48_length _)]
  · rw [hzero, List.take_left' List.length_replicate]
  · rw [hcookie]
    exact List.take_left' rfl
  · rw [hoptions, List.take_left' rfl]
  · rw [hpadding, ← hpad]
    exact fun b hb => List.eq_of_mem_replicate hb
  · simp only [requestOptions, List.append_assoc, List.cons_append, List.nil_append]

/-! ### Messages in no arm (R285, R293, R294) -/

/-- The instructions that take the live message as a DHCP message, each with where it takes the
message's type from (R103, R285; log 14). -/
theorem exec_dhcpMessage {s : State} {i : Instr} (hrun : s.run = .running)
    (hi : i ∈ [.dhcpReceive, .dhcpDiscover, .dhcpOffer, .dhcpRequest, .dhcpDecline, .dhcpAck,
      .dhcpNak, .dhcpRelease, .dhcpInform, .dhcpBootpReply]) :
    ∃ typeOf, exec i s = (dhcpReceiveBy typeOf s).outcome := by
  simp only [List.mem_cons, List.not_mem_nil, or_false] at hi
  obtain rfl | rfl | rfl | rfl | rfl | rfl | rfl | rfl | rfl | rfl := hi
  · exact ⟨_, runMain_running hrun dhcpReceive⟩
  all_goals exact ⟨_, runMain_running hrun (dhcpReceiveAs _)⟩

/-- A message in no row of R286. -/
theorem dhcpClassify_ignores {s : State} {type : Option Byte} {yi : Word32}
    (h : (s.dhcp.phase = .awaitingOffer ∧ type ≠ some 2) ∨
      (s.dhcp.phase = .requesting ∧
        (ipSource s ≠ s.dhcp.server ∨ (type ≠ some 5 ∧ type ≠ none))) ∨
      s.dhcp.phase = .init ∨ s.dhcp.phase = .bound ∨ yi = 0) (bcast : Option Word32) :
    dhcpClassify type bcast yi s = done s := by
  obtain ⟨hphase, htype⟩ | ⟨hphase, hserver | ⟨hack, hnone⟩⟩ | hphase | hphase | rfl := h
  · simp only [dhcpClassify, hphase, htype, false_and, and_false, if_false, reduceCtorEq]
  · simp [dhcpClassify, hphase, hserver]
  · simp only [dhcpClassify, hack, hnone, hphase, false_and, and_false, if_false, reduceCtorEq]
  · simp [dhcpClassify, hphase]
  · simp [dhcpClassify, hphase]
  · simp [dhcpClassify]

/-- Settles O45: the message is dropped before the classification, or is in none of its rows. -/
theorem otherMessagesAreIgnored : Obligations.OtherMessagesAreIgnored := by
  unfold Obligations.OtherMessagesAreIgnored
  refine ⟨fun s p len hrun hdata => ?_, fun s i p len hrun hdata hshort hi => ?_⟩
  · dsimp only
    intro h
    have hclassify := dhcpClassify_ignores (s := s) (type := (parseOptions s.buf p len).type)
      (yi := Memory.be32 s.buf (p + 16)) (by tauto) (parseOptions s.buf p len).bcast
    exact runMain_done hrun ((dhcpReceiveBy_eq hdata _).trans (by rw [hclassify, ite_self]))
  · obtain ⟨typeOf, hexec⟩ := exec_dhcpMessage hrun hi
    rw [hexec, dhcpReceiveBy_eq hdata, if_neg fun h => Nat.not_le.2 hshort h.1, outcome_done]

/-- Settles O46: no row of R286 is for BOUND. -/
theorem boundIgnoresEveryMessage : Obligations.BoundIgnoresEveryMessage := by
  unfold Obligations.BoundIgnoresEveryMessage
  intro s i hrun hbound hi
  obtain ⟨typeOf, hexec⟩ := exec_dhcpMessage hrun hi
  rw [hexec]
  cases hdata : udpData s with
  | none => rw [dhcpReceiveBy, hdata]; rfl
  | some d =>
    rw [dhcpReceiveBy_eq hdata, dhcpClassify_ignores (.inr (.inr (.inr (.inl hbound)))), ite_self,
      outcome_done]

/-! ### The arms of the classification (R286) -/

/-- An instruction that takes the live datagram as a message of the type its options carry is
`DHCP.RECEIVE` (R245, R285). -/
theorem exec_of_takesOwnType {s : State} {i : Instr} (hrun : s.run = .running)
    {p len : Nat} (hdata : udpData s = some (p, len)) (h : takesOwnType s i) :
    exec i s = (dhcpReceive s).outcome := by
  obtain rfl | ⟨hport, h⟩ := h
  · exact runMain_running hrun _
  have hdemux : udpDemuxAs 68 s = dhcpReceive s :=
    (if_pos (udpData_portsInside hdata)).trans (demuxBy_dhcpClient fun h => hport h.2.symm)
  rw [← hdemux]
  obtain rfl | ⟨rfl, hdest⟩ := h
  · exact runMain_running hrun _
  · rw [← hdest]
    exact runMain_running hrun _

/-- A message that can be sent is broadcast from the priority slot, whatever the DHCP session is
(R280, R290). -/
theorem dhcpBroadcast_setDhcp_ok {s : State} {m : List Byte} (hcan : canSend s m.length) (d : Dhcp) :
    ∃ u, SentPriority s u (dhcpFrame s m) ∧
      dhcpBroadcast m (s.setDhcp d) = .ok () (u.setDhcp d) := by
  obtain ⟨v, ⟨template, c, hread, hout, hinit, rfl⟩, hbroadcast⟩ := ipSend_prio_template
    (s := s.setDhcp d) hcan Config.broadcastMac Config.broadcastIp Config.dhcpClientPort
    Config.dhcpServerPort
  exact ⟨_, ⟨template, c, hread, hout, hinit, rfl⟩, hbroadcast⟩

/-- The REQUEST of an accepted OFFER goes out, and the client is REQUESTING (R290). -/
theorem dhcpAcceptOffer_ok {s : State} {yi : Word32} {m : List Byte}
    (hm : dhcpMessage s.par (requestOptions s.par yi (ipSource s)) = m) (hcan : canSend s m.length) :
    ∃ u, SentPriority s u (dhcpFrame s m) ∧ dhcpAcceptOffer yi s =
      done { u with dhcp := { phase := .requesting, server := ipSource s, offered := yi } } := by
  obtain ⟨u, hsent, hbroadcast⟩ := dhcpBroadcast_setDhcp_ok hcan
    { s.dhcp with server := ipSource s, offered := yi }
  refine ⟨u, hsent, ?_⟩
  rw [dhcpAcceptOffer, hm, hbroadcast]
  rfl

/-- Settles O43: row 1 of R286, whichever way the message's type is known. -/
theorem offerBroadcastsRequest : Obligations.OfferBroadcastsRequest := by
  unfold Obligations.OfferBroadcastsRequest
  intro s i p len hrun hphase hdata hlen hdone hi
  generalize hyi : Memory.be32 s.buf (p + 16) = yi
  dsimp only
  generalize hm : dhcpMessage s.par (requestOptions s.par yi (ipSource s)) = m
  intro hnonzero hcan
  have hreceive (typeOf : OptParse → Option Byte)
      (htype : typeOf (parseOptions s.buf p len) = some 2) :
      dhcpReceiveBy typeOf s = dhcpAcceptOffer yi s := by
    rw [dhcpReceiveBy_eq hdata, if_pos ⟨hlen, hdone⟩, htype, hyi, dhcpClassify,
      if_pos ⟨hphase, rfl, hnonzero⟩]
  have hexec : exec i s = (dhcpAcceptOffer yi s).outcome := by
    obtain rfl | ⟨htype, htakes⟩ := hi
    · rw [← hreceive (fun _ => some 2) rfl]
      exact runMain_running hrun _
    · rw [exec_of_takesOwnType hrun hdata htakes, dhcpReceive, hreceive OptParse.type htype]
  obtain ⟨u, hsent, haccept⟩ := dhcpAcceptOffer_ok hm hcan
  exact ⟨u, hsent, hexec.trans (congrArg Res.outcome haccept)⟩

/-- Rows 2 and 3 of R286: an ACK or a message with no type, from the remembered server. -/
theorem dhcpClassify_binds {s : State} {type : Option Byte} {yi : Word32}
    (hphase : s.dhcp.phase = .requesting) (hserver : ipSource s = s.dhcp.server)
    (htype : type = some 5 ∨ type = none) (hyi : yi ≠ 0) (bcast : Option Word32) :
    dhcpClassify type bcast yi s = done (dhcpBind yi bcast s) := by
  have hoffer : ¬ (s.dhcp.phase = .awaitingOffer ∧ type = some 2 ∧ yi ≠ 0) :=
    fun h => by simp [hphase] at h
  rw [dhcpClassify, if_neg hoffer]
  obtain rfl | rfl := htype
  · rw [if_pos ⟨hphase, hserver, rfl, hyi⟩]
  · have hack : ¬ (s.dhcp.phase = .requesting ∧ ipSource s = s.dhcp.server ∧
        (none : Option Byte) = some 5 ∧ yi ≠ 0) := fun ⟨_, _, h, _⟩ => nomatch h
    rw [if_neg hack, if_pos ⟨hphase, hserver, rfl, hyi⟩]

/-- Everything binding writes (R292, R295). -/
theorem dhcpBind_eq (yi : Word32) (bcast : Option Word32) (s : State) : dhcpBind yi bcast s =
    { s with
      ip := { host := yi, bcast := bcast.getD 0xffffffff, server := s.dhcp.server,
              serverMac := ethSource s }
      dhcp := { s.dhcp with phase := .bound }
      rtx := { s.rtx with prioEnd := s.par.prioNone, timeout := s.par.tMin, wait := s.par.tMin }
      obs := s.obs ++ [.boundNotify yi (bcast.getD 0xffffffff) s.dhcp.server] } := by
  unfold dhcpBind
  generalize ethSource s = mac
  rfl

/-- Settles O44: rows 2 and 3 of R286, whichever way the message's type is known. -/
theorem ackOrBootpReplyBinds : Obligations.AckOrBootpReplyBinds := by
  unfold Obligations.AckOrBootpReplyBinds
  intro s i p len hrun hphase hserver hdata hlen hdone hi
  generalize hyi : Memory.be32 s.buf (p + 16) = yi
  intro hnonzero yi' bcast
  have hreceive (typeOf : OptParse → Option Byte)
      (htype : typeOf (parseOptions s.buf p len) = some 5 ∨
        typeOf (parseOptions s.buf p len) = none) :
      dhcpReceiveBy typeOf s = done (dhcpBind yi (parseOptions s.buf p len).bcast s) := by
    rw [dhcpReceiveBy_eq hdata, if_pos ⟨hlen, hdone⟩, hyi,
      dhcpClassify_binds hphase hserver htype hnonzero]
  have hexec : exec i s = .next (dhcpBind yi (parseOptions s.buf p len).bcast s) := by
    obtain rfl | rfl | ⟨htype, htakes⟩ := hi
    · exact runMain_done hrun (hreceive (fun _ => some 5) (.inl rfl))
    · exact runMain_done hrun (hreceive (fun _ => none) (.inr rfl))
    · rw [exec_of_takesOwnType hrun hdata htakes, dhcpReceive, hreceive OptParse.type htype,
        outcome_done]
  have hbcast : (parseOptions s.buf p len).bcast.getD 0xffffffff = bcast := by
    cases h : (parseOptions s.buf p len).bcast <;> simp only [bcast, h] <;> rfl
  rw [hexec, dhcpBind_eq, hbcast]

/-! ### The order of the DHCP states (R296) -/

/-- The DHCP state of `t` is that of `s` or the next one. -/
def PhaseKeptOrNext (s t : State) : Prop :=
  phaseRank t.dhcp.phase = phaseRank s.dhcp.phase ∨
    phaseRank t.dhcp.phase = phaseRank s.dhcp.phase + 1

theorem PhaseKeptOrNext.between {s t u v : State} (hst : KeepsConfig s t)
    (htu : PhaseKeptOrNext t u) (huv : KeepsConfig u v) : PhaseKeptOrNext s v := by
  rwa [PhaseKeptOrNext, huv.phase, ← hst.phase]

/-- Each move is guarded by the state before it. -/
theorem PhaseMove.next {s t : State} (m : PhaseMove s t) : PhaseKeptOrNext s t := by
  cases m with
  | boot hphase => exact .inr (by rw [hphase]; rfl)
  | offer hphase => exact .inr (by rw [hphase]; rfl)
  | bind yi bcast hphase hyi => exact .inr (by rw [hphase]; rfl)

/-- A path has at most one move. -/
theorem Path.phaseKeptOrNext {b : Bool} {s t : State} (p : Path b s t) : PhaseKeptOrNext s t := by
  induction p with
  | refl => exact .inl rfl
  | atom _ a ih => exact .between (.refl _) ih a.keepsConfig
  | phase p m => exact .between p.keepsConfig m.next (.refl _)

theorem exec_phaseKeptOrNext {i : Instr} {s t : State} (h : exec i s = .next t) :
    PhaseKeptOrNext s t := by
  obtain ⟨u, w, hu, p, rfl | ⟨-, q⟩⟩ := exec_starts_path h
  · exact .between hu.keepsConfig p.phaseKeptOrNext (.refl _)
  · exact .between hu.keepsConfig p.phaseKeptOrNext q.keepsConfig

theorem linkArrival_dhcp (f : RxFrame) (s : State) : (linkArrival f s).dhcp = s.dhcp := by
  unfold linkArrival
  split <;> rfl

/-- Settles O8: an instruction makes at most one move, and an arrival or a dropped unit none. -/
theorem dhcpStateMovesForward : Obligations.DhcpStateMovesForward := by
  unfold Obligations.DhcpStateMovesForward
  intro s t h
  obtain ⟨rest, ⟨i, he⟩ | ⟨f, rfl⟩ | rfl⟩ := step_cases h
  · exact exec_phaseKeptOrNext (s := s.setScript rest) he
  · exact .inl (by rw [linkArrival_dhcp]; rfl)
  · exact .inl rfl

end Sys2Proof.Machine
end

section
/-! Proofs of the TFTP statements (46_tftp.md R330 to R353). Every instruction that takes the live
frame as a message is `tftpByOpcode` of its opcode, and as a DATA message `tftpDataAt`, whose arms
are said once each. A session's fields play no part in a send, so the state an acknowledgment leaves
is described in terms of the state the message found. -/

namespace Sys2Proof.Machine

/-! ### Starting a transfer (R330 to R333) -/

theorem readRequestAllowed_iff (s : State) (filename : List Byte) (base limit : Nat)
    (hook verify : Bool) : readRequestAllowed s filename base limit hook verify = true ↔
      s.run = .running ∧ s.dhcp.phase = .bound ∧ filename ≠ [] ∧ 0 ∉ filename ∧ base ≤ limit ∧
        (verify = true → s.par.signature ≠ none ∧ hook = false) := by
  have hverify : (!verify || (s.par.signature.isSome && !hook)) = true ↔
      (verify = true → s.par.signature ≠ none ∧ hook = false) := by
    rw [Option.ne_none_iff_isSome]
    cases verify <;> simp
  simp only [readRequestAllowed, Bool.and_eq_true, decide_eq_true_eq, Bool.not_eq_true',
    ← Bool.not_eq_true, List.contains_iff_mem, hverify, and_assoc]

/-- The state that a read request sends in: the client port is drawn and the session overwritten
(R332, R333). -/
def sessionStarted (s : State) (base limit : Nat) (hook verify : Bool) : State :=
  (usePort s).setTftp (freshSession s.tftp (portDraw s) base limit hook verify)

/-- A read request that is allowed and fits goes out from the priority slot (R330, R331). -/
theorem tftpReadRequest_ok {s : State} {filename m : List Byte} {base limit : Nat}
    {hook verify : Bool} (hm : rrqMessage s.par filename = m)
    (hallowed : readRequestAllowed s filename base limit hook verify = true)
    (hcan : canSend s m.length) :
    ∃ t, SentPriority (sessionStarted s base limit hook verify) t
        (templateBytes s.ip.serverMac s.par.localMac s.ip.host s.ip.server (portDraw s) 69
          (BitVec.ofNat 16 (8 + m.length)) ++ m) ∧
      tftpReadRequest filename base limit hook verify s = done t := by
  obtain ⟨t, hsent, hsend⟩ := ipSend_prio_template
    (s := sessionStarted s base limit hook verify) hcan s.ip.serverMac s.ip.server (portDraw s)
    Config.tftpServerPort
  refine ⟨t, hsent, ?_⟩
  rw [tftpReadRequest, if_pos hallowed, hm]
  exact hsend

theorem tftpReadRequest_notAllowed {s : State} {filename : List Byte} {base limit : Nat}
    {hook verify : Bool}
    (h : readRequestAllowed s filename base limit hook verify ≠ true) :
    tftpReadRequest filename base limit hook verify s = .fault .hostProtocol := if_neg h

/-- Settles O51: what R330 requires is the operation's own check, and the port drawn is legal. -/
theorem readRequestStartsSession : Obligations.ReadRequestStartsSession := by
  unfold Obligations.ReadRequestStartsSession
  intro s filename base limit hook verify
  have hexec : exec (.tftpReadRequest filename base limit hook verify) s =
      (tftpReadRequest filename base limit hook verify s).outcome := rfl
  have hiff := readRequestAllowed_iff s filename base limit hook verify
  dsimp only
  rw [hexec, ← hiff]
  refine ⟨fun hrefused => congrArg Res.outcome (tftpReadRequest_notAllowed hrefused),
    fun hallowed hcan => ?_⟩
  obtain ⟨t, hsent, hsend⟩ := tftpReadRequest_ok (s := s) (filename := filename) rfl hallowed hcan
  exact ⟨portDraw s, t, legalPort_ne_zero _, legalPort_ne_68 _, hsent, congrArg Res.outcome hsend⟩

/-! ### Entry to the fatal condition (R390) -/

/-- Everything that raising a fatal condition does. -/
theorem raiseFatal_outcome {α : Type} (c : FatalCode) (s : State) :
    (raiseFatal c s : Res α).outcome = .next { s with
      run := .haltedFatal
      fatalReason := fatalByte c
      obs := s.obs ++ [.fatalNotify (fatalByte c)] } := rfl

/-! ### What an acknowledged block needs (R340) -/

theorem SentPriority.setTftp {s u : State} {frame : List Byte} (x : Tftp)
    (h : SentPriority (s.setTftp x) u frame) :
    ∃ v, SentPriority s v frame ∧ u = v.setTftp x := by
  obtain ⟨template, c, hread, hout, hinit, rfl⟩ := h
  exact ⟨_, ⟨template, c, hread, hout, hinit, rfl⟩, rfl⟩

theorem SentPriority.run_eq {s u : State} {frame : List Byte} (h : SentPriority s u frame) :
    u.run = s.run := by
  obtain ⟨template, c, -, -, -, rfl⟩ := h
  rfl

theorem SentPriority.dest_eq {s u : State} {frame : List Byte} (h : SentPriority s u frame) :
    u.dest = s.dest := by
  obtain ⟨template, c, -, -, -, rfl⟩ := h
  rfl

theorem SentPriority.buf_eq {s u : State} {frame : List Byte} (h : SentPriority s u frame) :
    u.buf = s.buf := by
  obtain ⟨template, c, -, -, -, rfl⟩ := h
  rfl

theorem SentPriority.tftp_eq {s u : State} {frame : List Byte} (h : SentPriority s u frame) :
    u.tftp = s.tftp := by
  obtain ⟨template, c, -, -, -, rfl⟩ := h
  rfl

theorem SentPriority.obs_eq {s u : State} {frame : List Byte} (h : SentPriority s u frame) :
    u.obs = s.obs ++ [.tx .prio frame false] := by
  obtain ⟨template, c, -, -, -, rfl⟩ := h
  rfl

theorem ackMessage_length (block : Word16) : (ackMessage block).length = 4 := rfl

/-- The acknowledgment of a message in the live frame goes out to its sender. -/
theorem sendAck_ok {s : State} {p len : Nat} (hdata : udpData s = some (p, len))
    (hacc : dataAcceptable s len) (block : Word16) :
    ∃ u, SentPriority s u (ackFrame s block) ∧ sendAck block s = done u := by
  obtain ⟨-, -, -, hlive, hview, hwaits, hslot⟩ := hacc
  obtain ⟨u, hsent, hu⟩ := ipSend_prio_template (s := s) (payload := ackMessage block)
    ⟨hwaits, hslot, by rw [ackMessage_length]; decide⟩ (ethSource s)
    (ipSource s) (udpDestPort s) (udpSourcePort s)
  refine ⟨u, hsent, ?_⟩
  have hports := (portsInside_iff s).1 (udpData_portsInside hdata)
  rw [sendAck, ipReply_creates hlive hview hports, done_andThen]
  exact hu

/-- The session once a new block has pinned the server's port (R341). -/
def pinnedSession (s : State) : Tftp :=
  { s.tftp with latched := true, serverPort := udpSourcePort s }

/-- A port that is pinned already is the sender's own. -/
theorem latchPort_eq {s : State}
    (hport : s.tftp.latched = true → udpSourcePort s = s.tftp.serverPort) :
    latchPort (udpSourcePort s) s = s.setTftp (pinnedSession s) := by
  rw [latchPort, pinnedSession]
  by_cases hlatched : s.tftp.latched = true
  · rw [if_pos hlatched, hport hlatched, ← hlatched]
    rfl
  · rw [if_neg hlatched]

/-- The acknowledgment of a new block goes out as it would without the port's pinning. -/
theorem sendAck_latchPort_ok {s : State} {p len : Nat} (hdata : udpData s = some (p, len))
    (hacc : dataAcceptable s len) (block : Word16) :
    ∃ u, SentPriority s u (ackFrame s block) ∧
      sendAck block (latchPort (udpSourcePort s) s) = done (u.setTftp (pinnedSession s)) := by
  obtain ⟨hmin, hmax, hport, hrest⟩ := hacc
  have hacc' : dataAcceptable (s.setTftp (pinnedSession s)) len :=
    ⟨hmin, hmax, fun _ => rfl, hrest⟩
  obtain ⟨v, hsent, hack⟩ := sendAck_ok (s := s.setTftp (pinnedSession s)) hdata hacc' block
  obtain ⟨u, hsent', rfl⟩ := hsent.setTftp
  exact ⟨u, hsent', by rw [latchPort_eq hport, hack]⟩

/-! ### The arms of a DATA message (R338, R339, R342) -/

theorem tftpDataAt_badLength {len : Nat} (h : len < 4 ∨ 516 < len) (p : Nat) (s : State) :
    tftpDataAt p len s = done s := if_pos h

section

variable {s : State} {p len : Nat} (hmin : 4 ≤ len) (hmax : len ≤ 516)

include hmin hmax

theorem tftpDataAt_badPort (hlatched : s.tftp.latched = true)
    (hport : udpSourcePort s ≠ s.tftp.serverPort) :
    tftpDataAt p len s = raiseFatal .tftpBadPort s := by
  rw [tftpDataAt, if_neg (by simp [Config.maxBlock]; omega)]
  exact if_pos ⟨hlatched, hport⟩

/-- A message of a legal length from an acceptable port is judged by its block number alone. -/
theorem tftpDataAt_eq (hport : s.tftp.latched = true → udpSourcePort s = s.tftp.serverPort) :
    tftpDataAt p len s =
      if Memory.be16 s.buf (p + 2) = s.tftp.expected then
        newBlock (udpSourcePort s) s.tftp.expected (Memory.readBytes s.buf (p + 4) (len - 4)) s
      else if Memory.be16 s.buf (p + 2) = s.tftp.expected - 1 then sendAck (s.tftp.expected - 1) s
      else raiseFatal .tftpBadBlock s := by
  rw [tftpDataAt, if_neg (by simp [Config.maxBlock]; omega)]
  dsimp only
  rw [if_neg fun ⟨hlatched, hne⟩ => hne (hport hlatched)]
  split
  next hnew => rw [hnew]
  next =>
    split
    next hdup => rw [hdup]
    next => rfl

end

/-! ### A new block (R341 to R346) -/

theorem addTotal_exact {t : Word32} {n : Nat} (h : t.toNat + n < 4294967296) :
    (addTotal t n).toNat = t.toNat + n := by
  rw [addTotal, if_pos h, BitVec.toNat_ofNat, Nat.mod_eq_of_lt h]

/-- The session after a new block of `n` bytes, its cursor aside (R341, R343 to R345). -/
def sessionAfter (s : State) (n : Nat) : Tftp :=
  { pinnedSession s with expected := s.tftp.expected + 1, total := addTotal s.tftp.total n }

/-- `u` after the block of `n` bytes that `s` found at `p` is appended to the destination (R344). -/
def blockAppended (s u : State) (p n : Nat) : State :=
  { u with
    dest := Memory.write s.dest s.tftp.cursor (Memory.readBytes s.buf (p + 4) n)
    tftp := { sessionAfter s n with cursor := s.tftp.cursor + n } }

/-- `u` after the block of `n` bytes that `s` found at `p` is given to the hook (R345). -/
def blockHooked (s u : State) (p n : Nat) : State :=
  { u with
    tftp := sessionAfter s n
    obs := u.obs ++ [.blockHook s.tftp.expected (Memory.readBytes s.buf (p + 4) n)] }

/-- What follows the delivery of a block of `n` bytes: a short one completes the transfer (R346). -/
def finishBlock (n : Nat) (s : State) : Res Unit := if n < 512 then tftpComplete s else done s

theorem finishBlock_full (s : State) : finishBlock 512 s = done s := if_neg (Nat.lt_irrefl 512)

theorem finishBlock_short {s : State} {n : Nat} (hrun : s.run = .running) (hshort : n < 512) :
    (finishBlock n s).outcome = exec .tftpComplete s := by
  rw [finishBlock, if_pos hshort]
  exact (runMain_running hrun _).symm

/-- The destination has room for `n` more bytes (R72, R344). -/
abbrev destHasRoom (x : Tftp) (n : Nat) : Prop :=
  x.cursor + n ≤ x.destLimit ∧ (n = 0 ∨ x.destBase ≤ x.cursor)

/-- How the block of `n` bytes that `s` found at `p` ends once it is acknowledged, in `u`: the hook
gets it, or it is appended to the destination, whose end it must not pass (R344, R345). -/
def deliveryOf (s u : State) (p n : Nat) : Res Unit :=
  if s.tftp.hook = true then finishBlock n (blockHooked s u p n)
  else if destHasRoom s.tftp n then finishBlock n (blockAppended s u p n)
  else .fault .destOverrun

section

variable {s : State} {n : Nat}

theorem deliveryOf_hooked (hhook : s.tftp.hook = true) (u : State) (p : Nat) :
    deliveryOf s u p n = finishBlock n (blockHooked s u p n) := if_pos hhook

theorem deliveryOf_flat (hflat : s.tftp.hook = false) (hroom : destHasRoom s.tftp n) (u : State)
    (p : Nat) : deliveryOf s u p n = finishBlock n (blockAppended s u p n) := by
  rw [deliveryOf, hflat, if_neg Bool.false_ne_true, if_pos hroom]

theorem deliveryOf_overrun (hflat : s.tftp.hook = false) (hover : ¬ destHasRoom s.tftp n)
    (u : State) (p : Nat) : deliveryOf s u p n = .fault .destOverrun := by
  rw [deliveryOf, hflat, if_neg Bool.false_ne_true, if_neg hover]

end

/-- A new block that was acknowledged is delivered, and a short one then completes. -/
theorem newBlock_eq {sport block : Word16} {s t : State}
    (hack : sendAck block (latchPort sport s) = done t) (bs : List Byte) :
    newBlock sport block bs s =
      (deliver block bs t).andThen fun v => finishBlock bs.length (expectNext v) := by
  rw [newBlock, hack, done_andThen]
  rfl

/-- Everything the delivery of a block in the live frame does. -/
theorem deliver_eq {s u : State} (hdest : u.dest = s.dest) (p n : Nat) :
    ((deliver s.tftp.expected (Memory.readBytes s.buf (p + 4) n)
        (u.setTftp (pinnedSession s))).andThen fun v => finishBlock n (expectNext v)) =
      deliveryOf s u p n := by
  have hkept : (u.setTftp (pinnedSession s)).tftp.hook = s.tftp.hook := rfl
  have hempty : Memory.readBytes s.buf (p + 4) n = [] ↔ n = 0 := by
    rw [← List.length_eq_zero_iff, readBytes_length]
  rw [deliver, hkept]
  by_cases hhook : s.tftp.hook = true
  · rw [deliveryOf_hooked hhook, if_pos hhook, done_andThen, deliverHook, readBytes_length]
    rfl
  have hflat := Bool.eq_false_of_not_eq_true hhook
  rw [if_neg hhook, deliverFlat, readBytes_length]
  by_cases hroom : destHasRoom s.tftp n
  · rw [deliveryOf_flat hflat hroom, if_pos ⟨hroom.1, hroom.2.imp_left hempty.2⟩, done_andThen,
      blockAppended, ← hdest]
    rfl
  · rw [deliveryOf_overrun hflat hroom,
      if_neg fun ⟨hlimit, hbase⟩ => hroom ⟨hlimit, hbase.imp_left hempty.1⟩]
    rfl

/-- Everything a new block does: it is acknowledged, then delivered. -/
theorem tftpDataAt_new {s : State} {p n : Nat} (hdata : udpData s = some (p, 4 + n))
    (hacc : dataAcceptable s (4 + n)) (hblock : Memory.be16 s.buf (p + 2) = s.tftp.expected) :
    ∃ u, SentPriority s u (ackFrame s s.tftp.expected) ∧
      tftpDataAt p (4 + n) s = deliveryOf s u p n := by
  obtain ⟨u, hsent, hack⟩ := sendAck_latchPort_ok hdata hacc s.tftp.expected
  obtain ⟨hmin, hmax, hport, -⟩ := hacc
  refine ⟨u, hsent, ?_⟩
  rw [tftpDataAt_eq hmin hmax hport, if_pos hblock, newBlock_eq hack, readBytes_length,
    Nat.add_sub_cancel_left, deliver_eq hsent.dest_eq]

/-- A duplicate is acknowledged again (R339, R349). -/
theorem tftpDataAt_duplicate {s : State} {p len : Nat} (hdata : udpData s = some (p, len))
    (hacc : dataAcceptable s len) (hblock : Memory.be16 s.buf (p + 2) = s.tftp.expected - 1) :
    ∃ u, SentPriority s u (ackFrame s (s.tftp.expected - 1)) ∧ tftpDataAt p len s = done u := by
  obtain ⟨u, hsent, hack⟩ := sendAck_ok hdata hacc (s.tftp.expected - 1)
  obtain ⟨hmin, hmax, hport, -⟩ := hacc
  have hold : Memory.be16 s.buf (p + 2) ≠ s.tftp.expected := by
    rw [hblock]
    bv_omega
  exact ⟨u, hsent, by rw [tftpDataAt_eq hmin hmax hport, if_neg hold, if_pos hblock, hack]⟩

/-! ### The instructions that take a message (R335, R245) -/

theorem tftpByOpcode_data (p len : Nat) (s : State) :
    tftpByOpcode 3 p len s = tftpDataAt p len s := by
  rw [tftpByOpcode, if_neg (by decide), if_neg (by decide)]

theorem tftpByOpcode_error (p len : Nat) (s : State) :
    tftpByOpcode 5 p len s = raiseFatal .tftpError s := if_pos rfl

theorem tftpByOpcode_other {op : Word16} (hdata : op ≠ 3) (herror : op ≠ 5) (p len : Nat)
    (s : State) : tftpByOpcode op p len s = raiseFatal .tftpBadOpcode s := by
  rw [tftpByOpcode, if_neg herror, if_pos hdata]

section

variable {s : State} {p len : Nat} (hdata : udpData s = some (p, len))

include hdata

theorem tftpReceiveBy_short (hlen : len < 2) (opcodeAt : Nat → Word16) :
    tftpReceiveBy opcodeAt s = done s := by
  rw [tftpReceiveBy, hdata]
  exact if_pos hlen

theorem tftpReceiveBy_eq (hlen : 2 ≤ len) (opcodeAt : Nat → Word16) :
    tftpReceiveBy opcodeAt s = tftpByOpcode (opcodeAt p) p len s := by
  rw [tftpReceiveBy, hdata]
  exact if_neg (Nat.not_lt.2 hlen)

theorem tftpReceive_data (hlen : 2 ≤ len) (hop : Memory.be16 s.buf p = 3) :
    tftpReceive s = tftpDataAt p len s := by
  rw [tftpReceive, tftpReceiveBy_eq hdata hlen, hop, tftpByOpcode_data]

/-- A message received as DATA, one too short for an opcode among them. -/
theorem tftpReceiveAs_data : tftpReceiveAs 3 s = tftpDataAt p len s := by
  by_cases hlen : len < 2
  · rw [tftpReceiveAs, tftpReceiveBy_short hdata hlen, tftpDataAt_badLength (.inl (by omega))]
  · rw [tftpReceiveAs, tftpReceiveBy_eq hdata (Nat.not_lt.1 hlen), tftpByOpcode_data]

/-- Every instruction that takes the live datagram as a DATA message runs `tftpDataAt`. -/
theorem exec_of_takesData {i : Instr} (hrun : s.run = .running) (hlen : 2 ≤ len)
    (h : takesData s p i) : exec i s = (tftpDataAt p len s).outcome := by
  obtain rfl | ⟨hop, h⟩ := h
  · rw [← tftpReceiveAs_data hdata]
    exact runMain_running hrun _
  rw [← tftpReceive_data hdata hlen hop]
  obtain rfl | ⟨hactive, h⟩ := h
  · exact runMain_running hrun _
  have hdemux : udpDemuxAs s.tftp.clientPort s = tftpReceive s :=
    (if_pos (udpData_portsInside hdata)).trans (demuxBy_transfer ⟨hactive, rfl⟩)
  rw [← hdemux]
  obtain rfl | ⟨rfl, hdest⟩ := h
  · exact runMain_running hrun _
  · rw [← hdest]
    exact runMain_running hrun _

end

/-- Settles O52: a full block is not the last, so nothing follows its delivery. -/
theorem newBlockIsAcknowledgedAndDelivered : Obligations.NewBlockIsAcknowledgedAndDelivered := by
  unfold Obligations.NewBlockIsAcknowledgedAndDelivered
  intro s i p hrun hdata htakes hacc hblock
  obtain ⟨u, hsent, hnew⟩ := tftpDataAt_new (n := 512) hdata hacc hblock
  rw [exec_of_takesData hdata hrun (by decide) htakes, hnew]
  refine ⟨u, addTotal s.tftp.total 512, hsent, addTotal_exact, fun hflat hbase hlimit => ?_,
    fun hhook => ?_, fun hflat hover => ?_⟩
  · rw [deliveryOf_flat hflat ⟨hlimit, .inr hbase⟩, finishBlock_full, outcome_done, blockAppended,
      sessionAfter, pinnedSession]
  · rw [deliveryOf_hooked hhook, finishBlock_full]
    rfl
  · rw [deliveryOf_overrun hflat fun hroom => Nat.not_le.2 hover hroom.1]
    rfl

/-- Settles O53: the delivery of a short block is followed by the completion. -/
theorem shortBlockCompletesTransfer : Obligations.ShortBlockCompletesTransfer := by
  unfold Obligations.ShortBlockCompletesTransfer
  intro s i p n hrun hdata htakes hacc hshort hblock
  obtain ⟨u, hsent, hnew⟩ := tftpDataAt_new hdata hacc hblock
  have hurun : u.run = .running := hsent.run_eq.trans hrun
  rw [exec_of_takesData hdata hrun (by omega) htakes, hnew]
  refine ⟨u, addTotal s.tftp.total n, hsent, addTotal_exact, fun hflat hbase hlimit => ?_,
    fun hhook => ?_, fun hflat hover => ?_⟩
  · rw [deliveryOf_flat hflat ⟨hlimit, .inr hbase⟩]
    exact finishBlock_short (s := blockAppended s u p n) hurun hshort
  · rw [deliveryOf_hooked hhook]
    exact finishBlock_short (s := blockHooked s u p n) hurun hshort
  · rw [deliveryOf_overrun hflat fun hroom => Nat.not_le.2 hover hroom.1]
    rfl

/-- Settles O54: the acknowledgment is all a duplicate causes. -/
theorem duplicateBlockIsOnlyAcknowledged : Obligations.DuplicateBlockIsOnlyAcknowledged := by
  unfold Obligations.DuplicateBlockIsOnlyAcknowledged
  intro s i p len hrun hdata htakes hacc hblock
  obtain ⟨u, hsent, hdup⟩ := tftpDataAt_duplicate hdata hacc hblock
  have hmin : 4 ≤ len := hacc.1
  exact ⟨u, hsent, by rw [exec_of_takesData hdata hrun (by omega) htakes, hdup, outcome_done]⟩

/-- A full block that found its destination flat and came to an end was appended. -/
theorem tftpReceive_appends {s t : State} {p : Nat} (hrun : s.run = .running)
    (hdata : udpData s = some (p, 516)) (hacc : dataAcceptable s 516)
    (hop : Memory.be16 s.buf p = 3) (hblock : Memory.be16 s.buf (p + 2) = s.tftp.expected)
    (hflat : s.tftp.hook = false) (ht : exec .tftpReceive s = .next t) :
    ∃ u, SentPriority s u (ackFrame s s.tftp.expected) ∧ t = blockAppended s u p 512 := by
  obtain ⟨u, hsent, hnew⟩ := tftpDataAt_new (n := 512) hdata hacc hblock
  rw [exec_of_takesData hdata hrun (by decide) (.inr ⟨hop, .inl rfl⟩), hnew] at ht
  refine ⟨u, hsent, ?_⟩
  by_cases hroom : destHasRoom s.tftp 512
  · rw [deliveryOf_flat hflat hroom, finishBlock_full] at ht
    cases ht
    rfl
  · rw [deliveryOf_overrun hflat hroom] at ht
    cases ht

/-- A full block that was acknowledged and appended is still in the live frame, now as a duplicate
of the block before the expected one. -/
theorem SentPriority.duplicate_of_appended {s u t : State} {p : Nat} {frame : List Byte}
    (hsent : SentPriority s u frame) (ht : t = blockAppended s u p 512)
    (hdata : udpData s = some (p, 516)) (hacc : dataAcceptable s 516) (hwaits : waitsComplete s 4)
    (hblock : Memory.be16 s.buf (p + 2) = s.tftp.expected) :
    udpData t = some (p, 516) ∧ dataAcceptable t 516 ∧
      Memory.be16 t.buf (p + 2) = t.tftp.expected - 1 ∧
      ackFrame t (t.tftp.expected - 1) = ackFrame s s.tftp.expected := by
  obtain ⟨template, c, -, -, -, rfl⟩ := hsent
  subst ht
  obtain ⟨hmin, hmax, -, hlive, hview, -, hslot⟩ := hacc
  have hexpected : s.tftp.expected + 1 - 1 = s.tftp.expected := by bv_omega
  refine ⟨hdata, ⟨hmin, hmax, fun _ => rfl, hlive, hview, fun k hk => ?_, hslot⟩,
    hblock.trans hexpected.symm, ?_⟩
  · have hwait := hwaits (2 + k) (by omega)
    rwa [← Nat.add_assoc] at hwait
  · rw [← hexpected]
    rfl

/-- Settles O55: the first reception moves the session on, so that the second finds a duplicate. -/
theorem duplicateIsWrittenOnce : Obligations.DuplicateIsWrittenOnce := by
  unfold Obligations.DuplicateIsWrittenOnce
  intro s t p hrun hdata hacc hwaits hop hblock hflat hexec
  obtain ⟨u, hsent, ht⟩ := tftpReceive_appends hrun hdata hacc hop hblock hflat hexec
  obtain ⟨hdata', hacc', hblock', hframe⟩ :=
    hsent.duplicate_of_appended ht hdata hacc hwaits hblock
  obtain ⟨v, hsent', hdup⟩ := tftpDataAt_duplicate hdata' hacc' hblock'
  have hrun' : t.run = .running := ht ▸ hsent.run_eq.trans hrun
  have hbuf : t.buf = s.buf := ht ▸ hsent.buf_eq
  have hobs : t.obs = u.obs := ht ▸ rfl
  refine ⟨ht ▸ rfl, v, ?_, hsent'.dest_eq, hsent'.tftp_eq, ?_⟩
  · rw [exec_of_takesData hdata' hrun' (by decide) (.inr ⟨hbuf ▸ hop, .inl rfl⟩), hdup,
      outcome_done]
  · rw [hsent'.obs_eq, hframe, hobs, hsent.obs_eq, List.append_assoc]
    rfl

/-- Settles O56: the opcode is judged before anything else. -/
theorem errorAndOtherOpcodesAreFatal : Obligations.ErrorAndOtherOpcodesAreFatal := by
  unfold Obligations.ErrorAndOtherOpcodesAreFatal
  intro s i p len hrun hdata hlen
  have hreceive : exec .tftpReceive s = (tftpByOpcode (Memory.be16 s.buf p) p len s).outcome := by
    rw [← tftpReceiveBy_eq hdata hlen fun p => Memory.be16 s.buf p]
    exact runMain_running hrun _
  have hwire (op : Word16) : runMain s (tftpReceiveAs op) = (tftpByOpcode op p len s).outcome := by
    rw [runMain_running hrun, tftpReceiveAs, tftpReceiveBy_eq hdata hlen]
  refine ⟨fun h => ?_, fun h => ?_⟩
  · have hexec : exec i s = (tftpByOpcode 5 p len s).outcome := by
      obtain rfl | ⟨rfl, hop⟩ := h
      · exact hwire 5
      · rw [hreceive, hop]
    rw [hexec, tftpByOpcode_error, raiseFatal_outcome]
    rfl
  · have hexec : ∃ op : Word16, op ≠ 3 ∧ op ≠ 5 ∧
        exec i s = (tftpByOpcode op p len s).outcome := by
      obtain rfl | rfl | ⟨op, rfl, hop⟩ | ⟨rfl, hop⟩ := h
      · exact ⟨1, by decide, by decide, hwire 1⟩
      · exact ⟨4, by decide, by decide, hwire 4⟩
      · exact ⟨op, hop.1, hop.2, hwire op⟩
      · exact ⟨_, hop.1, hop.2, hreceive⟩
    obtain ⟨op, hdata, herror, hexec⟩ := hexec
    rw [hexec, tftpByOpcode_other hdata herror, raiseFatal_outcome]
    rfl

/-- Settles O57: the checks in their order, the length first, then the port, then the block. -/
theorem dataChecksDropOrAreFatal : Obligations.DataChecksDropOrAreFatal := by
  unfold Obligations.DataChecksDropOrAreFatal
  intro s i p len hrun hdata
  refine ⟨fun hshort hi => ?_, fun hi => ?_⟩
  · have hwire (op : Word16) : runMain s (tftpReceiveAs op) = .next s :=
      runMain_done hrun (tftpReceiveBy_short hdata hshort fun _ => op)
    obtain hi | ⟨op, rfl⟩ := hi
    · simp only [List.mem_cons, List.not_mem_nil, or_false] at hi
      obtain rfl | rfl | rfl | rfl | rfl := hi
      · exact runMain_done hrun (tftpReceiveBy_short hdata hshort fun p => Memory.be16 s.buf p)
      · exact hwire 1
      · exact hwire 3
      · exact hwire 4
      · exact hwire 5
    · exact hwire op
  · have hexec : exec i s = (tftpDataAt p len s).outcome := by
      obtain rfl | ⟨rfl, hlen, hop⟩ := hi
      · rw [← tftpReceiveAs_data hdata]
        exact runMain_running hrun _
      · exact exec_of_takesData hdata hrun hlen (.inr ⟨hop, .inl rfl⟩)
    rw [hexec]
    refine ⟨fun hlen => ?_, fun hmin hmax hpinned => ?_, fun hmin hmax hport hblock => ?_⟩
    · rw [tftpDataAt_badLength hlen, outcome_done]
    · rw [tftpDataAt_badPort hmin hmax hpinned.1 hpinned.2, raiseFatal_outcome]
      rfl
    · have hunexpected : Memory.be16 s.buf (p + 2) ≠ s.tftp.expected ∧
          Memory.be16 s.buf (p + 2) ≠ s.tftp.expected - 1 := by
        obtain hblock | ⟨n, hexpected, hblock⟩ := hblock
        · exact hblock
        · rw [hexpected, hblock]
          exact ⟨by bv_omega, by bv_omega⟩
      rw [tftpDataAt_eq hmin hmax fun hlatched => not_not.1 fun hne => hport ⟨hlatched, hne⟩,
        if_neg hunexpected.1, if_neg hunexpected.2, raiseFatal_outcome]
      rfl

/-! ### The end of a transfer (R347, R348) -/

/-- The state in which a completed transfer ends: its last frame is acknowledged and the session is
over (R347). -/
def sessionOver (s : State) : State :=
  { s with
    rtx := { s.rtx with prioEnd := s.par.prioNone, timeout := s.par.tMin, wait := s.par.tMin }
    tftp := { s.tftp with active := false } }

/-- The state once the completion hook has had the total and chosen (R347). -/
def completionHooked (s : State) : State :=
  useTransfer ((sessionOver s).emit (.completionHook s.tftp.total))

theorem tftpComplete_unverified {s : State} (h : s.tftp.verify = false) : tftpComplete s =
    if transferDraw s = true then transferControl (completionHooked s)
    else done (completionHooked s) := if_neg (by simp [ethAcknowledge, h])

theorem checkSignature_eq {α : Type} {s : State} {off : Nat} {sig : List Byte}
    (h : s.par.signature = some (off, sig)) : (checkSignature s : Res α) =
      if off + sig.length ≤ s.tftp.total.toNat ∧
          Memory.readBytes s.dest (s.tftp.destBase + off) sig.length = sig then transferControl s
      else raiseFatal .signatureMismatch s := by
  rw [checkSignature, h]

theorem tftpComplete_verified {s : State} {off : Nat} {sig : List Byte}
    (hverified : s.tftp.verify = true) (hsig : s.par.signature = some (off, sig)) :
    tftpComplete s =
      if off + sig.length ≤ s.tftp.total.toNat ∧
          Memory.readBytes s.dest (s.tftp.destBase + off) sig.length = sig then
        transferControl (sessionOver s)
      else raiseFatal .signatureMismatch (sessionOver s) :=
  (if_pos hverified).trans (checkSignature_eq (s := sessionOver s) hsig)

/-- Settles O58: the hook's draw and the signature each have two outcomes. -/
theorem completeHooksOrVerifies : Obligations.CompleteHooksOrVerifies := by
  unfold Obligations.CompleteHooksOrVerifies
  intro s hrun
  have hexec : exec .tftpComplete s = (tftpComplete s).outcome := runMain_running hrun _
  dsimp only
  rw [hexec]
  refine ⟨fun hunverified => ⟨fun hstays => ?_, fun htransfers => ?_⟩,
    fun off sig hverified hsig => ⟨fun hfound => ?_, fun hmissing => ?_⟩⟩
  · rw [tftpComplete_unverified hunverified, if_neg (by simp [hstays])]
    rfl
  · rw [tftpComplete_unverified hunverified, if_pos htransfers]
    rfl
  · rw [tftpComplete_verified hverified hsig, if_pos hfound]
    rfl
  · rw [tftpComplete_verified hverified hsig, if_neg hmissing, raiseFatal_outcome]
    rfl

end Sys2Proof.Machine
end

section
/-! Proofs of the statements about the timer interrupt and the fatal condition (60_exceptions.md R384
to R401). That nothing but the timer writes `TICKS` goes through `exec_moves`: no small change, no
start of a session or of a boot, and no end of a session writes it. The fatal condition goes through
the codes that R391 lists, which are the bytes of the conditions the model can raise. -/

namespace Sys2Proof.Machine

/-! ### The timer interrupt (R384) -/

theorem takeTick_unmasked {s : State} (h : s.irqMask = false) :
    takeTick s = { s with ticks := (s.ticks + 1) % 2 ^ s.par.tickBits } := if_neg (by simp [h])

theorem takeTick_masked {s : State} (h : s.irqMask = true) : takeTick s = s := if_pos h

/-! ### Who writes `TICKS` (R397, R431) -/

theorem Atom.ticks {s t : State} (a : Atom s t) : t.ticks = s.ticks := by
  cases a <;> rfl

theorem PhaseMove.ticks {s t : State} (m : PhaseMove s t) : t.ticks = s.ticks := by
  cases m <;> rfl

theorem Session.ticks {s t : State} (h : Session s t) : t.ticks = s.ticks := by
  cases h; rfl

theorem BootStart.ticks {s t : State} (h : BootStart s t) : t.ticks = s.ticks := by
  cases h; rfl

theorem Terminal.ticks {s t : State} (h : Terminal s t) : t.ticks = s.ticks := by
  cases h <;> rfl

theorem Path.ticks {b : Bool} {s t : State} (p : Path b s t) : t.ticks = s.ticks := by
  induction p with
  | refl => rfl
  | atom _ a ih => exact a.ticks.trans ih
  | phase _ m ih => exact m.ticks.trans ih

/-- A path, and perhaps the end of the session after it. -/
theorem ticks_of_path_or_terminal {b : Bool} {s t : State}
    (h : Path b s t ∨ ∃ w, Path b s w ∧ Terminal w t) : t.ticks = s.ticks := by
  obtain p | ⟨w, p, q⟩ := h
  · exact p.ticks
  · exact q.ticks.trans p.ticks

/-- No transition of MAIN writes `TICKS`. -/
theorem exec_ticks {i : Instr} {s t : State} (h : exec i s = .next t) (hi : i ≠ .irqTick) :
    t.ticks = s.ticks := by
  obtain ⟨htick, -⟩ | ⟨-, -, u, hu, hp⟩ | ⟨-, -, u, hu, hp⟩ | ⟨-, hp⟩ := exec_moves h
  · exact absurd htick hi
  · exact (ticks_of_path_or_terminal hp).trans hu.ticks
  · exact (ticks_of_path_or_terminal hp).trans hu.ticks
  · exact ticks_of_path_or_terminal hp

/-- Settles O10: the tick's two cases, and `exec_ticks` for every other instruction. -/
theorem onlyTheTimerWritesTicks : Obligations.OnlyTheTimerWritesTicks := by
  unfold Obligations.OnlyTheTimerWritesTicks
  refine ⟨fun s => ⟨fun hopen => ?_, fun hmasked => ?_⟩, fun i s t => exec_ticks⟩
  · exact congrArg Host.Outcome.next (takeTick_unmasked hopen)
  · exact congrArg Host.Outcome.next (takeTick_masked hmasked)

/-! ### The codes of the fatal condition (R391) -/

theorem fatalCodeOf_fatalByte (c : FatalCode) : fatalCodeOf (fatalByte c) = some c := by
  cases c <;> rfl

theorem fatalByte_of_fatalCodeOf {code : Byte} {c : FatalCode} (h : fatalCodeOf code = some c) :
    fatalByte c = code := by
  unfold fatalCodeOf at h
  split at h <;> cases h <;> rfl

/-- Every code from 1 to 7 names a condition. -/
theorem exists_fatalByte {code : Byte} (hlow : 1 ≤ code.toNat) (hhigh : code.toNat ≤ 7) :
    ∃ c, fatalByte c = code := by
  have hcode : code = BitVec.ofNat 8 code.toNat := by simp
  generalize code.toNat = n at hlow hhigh hcode
  subst hcode
  interval_cases n
  exacts [⟨.noResponse, rfl⟩, ⟨.tftpError, rfl⟩, ⟨.tftpBadOpcode, rfl⟩, ⟨.tftpBadBlock, rfl⟩,
    ⟨.tftpBadPort, rfl⟩, ⟨.signatureMismatch, rfl⟩, ⟨.pollTimeout, rfl⟩]

/-- No other code does. -/
theorem fatalCodeOf_unlisted {code : Byte} (h : code.toNat = 0 ∨ 7 < code.toNat) :
    fatalCodeOf code = none := by
  cases hc : fatalCodeOf code with
  | none => rfl
  | some c =>
    have hlisted := fatalByte_listed c
    rw [fatalByte_of_fatalCodeOf hc] at hlisted
    omega

/-! ### Entry to the fatal condition (R390, R401) -/

theorem exec_fatal_eq (code : Byte) (s : State) : exec (.fatal code) s = execFatal code s := rfl

/-- `FATAL` with the code of a condition raises that condition. -/
theorem exec_fatal_fatalByte {s : State} (hrun : s.run = .running) (c : FatalCode) :
    exec (.fatal (fatalByte c)) s = .next { s with
      run := .haltedFatal
      fatalReason := fatalByte c
      obs := s.obs ++ [.fatalNotify (fatalByte c)] } := by
  rw [exec_fatal_eq, execFatal, runMain_running hrun, fatalCodeOf_fatalByte]
  exact raiseFatal_outcome c s

/-- `FATAL` with a code that names no condition does nothing (log 28). -/
theorem exec_fatal_unlisted {s : State} (hrun : s.run = .running) {code : Byte}
    (h : fatalCodeOf code = none) : exec (.fatal code) s = .next s := by
  rw [exec_fatal_eq, execFatal, runMain_running hrun, h, outcome_done]

/-- A frame advance whose wait expires ends there: neither the ring nor the read cursor moves. -/
theorem ethAdvance_expired {s : State} (h : ¬ waitsComplete s 1) (next : Nat) :
    ethAdvance next s = raiseFatal .pollTimeout (usePoll s) := by
  rw [ethAdvance, linkAdvance, boundedWait_expired h]
  rfl

/-- Settles O59: a code of R391 is the byte of a condition, any other code names none, and an expired
wait is the whole of a frame advance. -/
theorem fatalEntryKeepsTheRest : Obligations.FatalEntryKeepsTheRest := by
  unfold Obligations.FatalEntryKeepsTheRest
  refine ⟨fun s code hrun => ⟨fun hlow hhigh => ?_, fun hunlisted => ?_⟩,
    fun s next hrun hwait => ?_⟩
  · obtain ⟨c, rfl⟩ := exists_fatalByte hlow hhigh
    exact exec_fatal_fatalByte hrun c
  · exact exec_fatal_unlisted hrun (fatalCodeOf_unlisted hunlisted)
  · have hexec : exec (.ethAdvance next) s = (ethAdvance next s).outcome := runMain_running hrun _
    rw [hexec, ethAdvance_expired hwait, raiseFatal_outcome]
    rfl

end Sys2Proof.Machine
end

section
/-! Proofs of the reset statements (70_reset_and_hazards.md R420): the values reset leaves, and the base
case of the invariant that every step keeps. -/

namespace Sys2Proof.Machine

/-- Settles O5: `State.resetWith` sets each field of R420 to its value, whatever the parameters. -/
theorem resetStateValues : Obligations.ResetStateValues := by
  unfold Obligations.ResetStateValues
  intro p
  exact ⟨rfl, rfl, rfl, rfl, rfl, rfl, rfl, rfl, rfl, rfl, rfl, rfl, rfl, rfl, rfl, rfl, rfl⟩

/-- Reset establishes each part of the invariant. The spaces and the ring are empty; no frame, option
iterator or transfer is in progress and no fatal condition was entered, so what is said of those holds
for want of one. The parameters count in two parts alone: they are legal, and the timer starts at
`T_MIN`, which is then at most `T_MAX` (R32). -/
theorem MachineInvariant.resetWith {p : Params} (hp : paramsValid p = true) :
    MachineInvariant (State.resetWith p) where
  params := hp
  bufWf := rfl
  tplWf := rfl
  ctrlWf := rfl
  destWf := rfl
  bufInside := List.forall_mem_nil _
  tplInside := List.forall_mem_nil _
  ctrlInside := List.forall_mem_nil _
  configured := by simp [configuredIffBound, State.resetWith]
  timer := ⟨le_rfl, paramsValid_tMin_le_tMax hp, le_rfl, Nat.le_add_right _ _⟩
  ticks := ⟨Nat.two_pow_pos _, Nat.two_pow_pos _⟩
  prioEnd := .inl rfl
  session := ⟨by simp [State.resetWith], nofun⟩
  live := nofun
  reason := ⟨fun _ => rfl, nofun⟩
  iterator := nofun
  view := nofun
  ring := Nat.zero_le _

/-- The parameter values of Config meet the constraints of R11 (log 5). -/
theorem paramsValid_resetParams : paramsValid Config.resetParams = true := by decide

/-- Settles O6: the parts of the invariant hold after reset with legal parameters, of which the
model's own are one choice. -/
theorem resetSatisfiesInvariant : Obligations.ResetSatisfiesInvariant := by
  unfold Obligations.ResetSatisfiesInvariant
  have hreset : ∀ p : Params, paramsValid p = true → Invariant (State.resetWith p) :=
    fun p hp => (invariant_iff _).2 (.resetWith hp)
  exact ⟨hreset, hreset _ paramsValid_resetParams⟩

end Sys2Proof.Machine
end
